-- ==== Sys2Proof/Word.lean ====
section
/-! DEFINITION. The word and byte types of the Streaming Cadence Engine and its fixed constants (00_scope.md R7). -/

namespace Sys2Proof

/-- One 32-bit unit of a command or response frame (R7, R120). -/
abbrev Word := BitVec 32

/-- One byte of the ring, of a record or of an 8-bit operand (R7, R80). -/
abbrev Byte := BitVec 8

/-- `HDR_BYTES`, the size of a record header (R7, R82). -/
abbrev hdrBytes : Nat := 3

/-- `TS_BYTES`, the size of a timestamp in a record (R7, R82). -/
abbrev tsBytes : Nat := 8

end Sys2Proof
end

