-- ==== Sys2Proof/Syntax.lean ====
section
/-! DEFINITION. The commands of the Streaming Cadence Engine as syntax: one constructor of `Instr` per row of
spec/opcode_table.json, with the operands of 30_encoding.md R123 to R135. -/

namespace Sys2Proof

/-- The kind of a bus (R36): bit 7 of `BUSID` (R123). -/
inductive BusKind where
  | i2c
  | spi
deriving DecidableEq, Repr, Inhabited

/-- A bus reference (kind, idx) (R36), the meaning of a `BUSID` (R123). -/
structure BusRef where
  kind : BusKind
  idx  : BitVec 7
deriving DecidableEq, Repr, Inhabited

/-- The four values of a `POLICY` field (R124); the value 3 is reserved. -/
inductive Policy where
  | onChange
  | risingEdge
  | fallingEdge
  | reserved
deriving DecidableEq, Repr, Inhabited

/-- The four values of a `UNIT` field (R124); 2 and 3 are unrecognised. -/
inductive UnitCode where
  | microseconds
  | milliseconds
  | unrecognised2
  | unrecognised3
deriving DecidableEq, Repr, Inhabited

/-- The two modes of streaming, `MODE` of STR_START (R124) and `ENG.amode` (R43). -/
inductive EngineMode where
  | polling
  | interrupt
deriving DecidableEq, Repr, Inhabited

/-- One (register-start-address, byte-count) block of a channel descriptor (R41, R133). -/
structure Block where
  reg : Byte
  cnt : Byte
deriving DecidableEq, Repr, Inhabited

/-- The fifteen commands of spec/opcode_table.json, each with the operands its frame carries. -/
inductive Instr where
  /-- BUS_CFG (R125). -/
  | busCfg (bus : BusRef) (speed : Byte) (bmode : BitVec 4)
  /-- BUS_CFGW (R126). -/
  | busCfgw (bus : BusRef) (speed : Byte) (w16 : Bool) (bmode : BitVec 4)
  /-- BUS_DECFG (R127). -/
  | busDecfg (bus : BusRef)
  /-- TMR_CFG (R128). -/
  | tmrCfg (inst : Byte) (tag : Byte)
  /-- TMR_START (R129). -/
  | tmrStart (inst : Byte) (oneshot : Bool) (timeout : BitVec 32)
  /-- TMR_STOP (R130). -/
  | tmrStop (inst : Byte)
  /-- TMR_RESET (R130). -/
  | tmrReset (inst : Byte)
  /-- INT_ATTACH (R131). -/
  | intAttach (pin : Byte) (policy : Policy) (tag : Byte)
  /-- INT_DETACH (R131). -/
  | intDetach (pin : Byte)
  /-- STR_CFG (R132, R133); `NB` is the number of blocks. -/
  | strCfg (chan : BitVec 4) (bus : BusRef) (dev : Byte) (period : BitVec 16) (unit : UnitCode)
      (tsEn : Bool) (intEn : Bool) (intPol : Policy) (intPin : Byte) (blocks : List Block)
  /-- STR_START (R134). -/
  | strStart (mode : EngineMode) (sampleCount : BitVec 16)
  /-- STR_STOP (R134); both operands stand in the frame and are ignored. -/
  | strStop (mode : EngineMode) (sampleCount : BitVec 16)
  /-- STR_READ (R135). -/
  | strRead (chf : Byte) (maxRecords : BitVec 16)
  /-- GET_MS (R135). -/
  | getMs
  /-- GET_US (R135). -/
  | getUs
deriving DecidableEq, Repr

end Sys2Proof
end

