-- ==== Sys2Proof/WellFormed.lean ====
section
/-! DEFINITION. The checks that make a term of `Instr` a command a frame can carry. -/

namespace Sys2Proof

/-- The largest value of the 4-bit field `NB` (R132, R133). -/
def maxFrameBlocks : Nat := 15

/-- A command is well formed when a frame can carry it: the number of blocks of a STR_CFG fits the 4-bit field `NB`
(R132, R133). Every other operand fits its field by its type. -/
def Instr.wf : Instr → Bool
  | .busCfg _ _ _ => true
  | .busCfgw _ _ _ _ => true
  | .busDecfg _ => true
  | .tmrCfg _ _ => true
  | .tmrStart _ _ _ => true
  | .tmrStop _ => true
  | .tmrReset _ => true
  | .intAttach _ _ _ => true
  | .intDetach _ => true
  | .strCfg _ _ _ _ _ _ _ _ _ blocks => decide (blocks.length ≤ maxFrameBlocks)
  | .strStart _ _ => true
  | .strStop _ _ => true
  | .strRead _ _ => true
  | .getMs => true
  | .getUs => true

end Sys2Proof
end

