-- ==== Sys2Proof/Decode.lean ====
section
/-! DEFINITION. The decoder from command frames to `Instr` (30_encoding.md R121 to R135, R138, R143) and, after it, the
encoder. A frame is a list of 32-bit words, the header first (R120, R121). -/

namespace Sys2Proof

/-- Why a list of words is not a command frame. -/
inductive DecodeError where
  /-- There is no header word. -/
  | noHeader
  /-- The header names an opcode that R121 does not list; the frame is one word long (R138). -/
  | unknownOpcode (opc : Byte)
  /-- The number of words is not the frame length that R121 gives the header. -/
  | wrongLength (opc : Byte)
  /-- A field marked "reserved, must be 0" is not 0 (R138). -/
  | reservedBits (opc : Byte)
deriving DecidableEq, Repr

/-- The fourteen opcodes of R121; 0x31 is shared by STR_START and STR_STOP. -/
inductive Opcode where
  | busCfg
  | busCfgw
  | busDecfg
  | tmrCfg
  | tmrStart
  | tmrStop
  | tmrReset
  | intAttach
  | intDetach
  | strCfg
  | strStartStop
  | strRead
  | getMs
  | getUs
deriving DecidableEq, Repr

/-- `OPC` of each opcode (R121). -/
def Opcode.code : Opcode → Byte
  | .busCfg => 0x01
  | .busCfgw => 0x02
  | .busDecfg => 0x03
  | .tmrCfg => 0x10
  | .tmrStart => 0x11
  | .tmrStop => 0x12
  | .tmrReset => 0x13
  | .intAttach => 0x20
  | .intDetach => 0x21
  | .strCfg => 0x30
  | .strStartStop => 0x31
  | .strRead => 0x32
  | .getMs => 0x40
  | .getUs => 0x41

/-- The opcode that an `OPC` byte names, if R121 lists it. -/
def Opcode.ofCode? (c : Byte) : Option Opcode :=
  if c = 0x01 then some .busCfg
  else if c = 0x02 then some .busCfgw
  else if c = 0x03 then some .busDecfg
  else if c = 0x10 then some .tmrCfg
  else if c = 0x11 then some .tmrStart
  else if c = 0x12 then some .tmrStop
  else if c = 0x13 then some .tmrReset
  else if c = 0x20 then some .intAttach
  else if c = 0x21 then some .intDetach
  else if c = 0x30 then some .strCfg
  else if c = 0x31 then some .strStartStop
  else if c = 0x32 then some .strRead
  else if c = 0x40 then some .getMs
  else if c = 0x41 then some .getUs
  else none

/-- Bits lo+len-1 down to lo of a word (R11). -/
def field (w : Word) (lo len : Nat) : BitVec len := w.extractLsb' lo len

/-- One bit of a word (R11). -/
def flag (w : Word) (i : Nat) : Bool := w.getLsbD i

/-- `OPC`, bits 31:24 of the header (R121). -/
def opcOf (h : Word) : Byte := field h 24 8

/-- `A`, bits 23:16 of the header (R121). -/
def fieldA (h : Word) : Byte := field h 16 8

/-- `NB`, bits 23:20 of a STR_CFG header (R132). -/
def fieldNB (h : Word) : BitVec 4 := field h 20 4

/-- The number of words of the frame a header begins (R121); 1 for an unknown `OPC` (R138). -/
def frameWords (h : Word) : Nat :=
  match Opcode.ofCode? (opcOf h) with
  | some .tmrStart => 2
  | some .strCfg => 2 + (fieldNB h).toNat
  | _ => 1

/-- The first whole frame of a word stream and the words after it; `none` while words of the frame are missing
(R121). -/
def splitFrame (ws : List Word) : Option (List Word × List Word) :=
  match ws with
  | [] => none
  | h :: _ => if frameWords h ≤ ws.length then some (ws.take (frameWords h), ws.drop (frameWords h)) else none

/-- A bus reference from a `BUSID` (R123). -/
def BusRef.ofCode (b : Byte) : BusRef :=
  { kind := if b.getLsbD 7 then .spi else .i2c, idx := b.extractLsb' 0 7 }

/-- The `BUSID` of a bus reference (R123). -/
def BusRef.code (r : BusRef) : Byte :=
  match r.kind with
  | .i2c => r.idx.setWidth 8
  | .spi => 0x80#8 ||| r.idx.setWidth 8

/-- A trigger policy from a `POLICY` field (R124). -/
def Policy.ofCode (c : BitVec 2) : Policy :=
  if c = 0 then .onChange else if c = 1 then .risingEdge else if c = 2 then .fallingEdge else .reserved

/-- The `POLICY` field of a trigger policy (R124). -/
def Policy.code : Policy → BitVec 2
  | .onChange => 0
  | .risingEdge => 1
  | .fallingEdge => 2
  | .reserved => 3

/-- A period unit from a `UNIT` field (R124). -/
def UnitCode.ofCode (c : BitVec 2) : UnitCode :=
  if c = 0 then .microseconds else if c = 1 then .milliseconds
  else if c = 2 then .unrecognised2 else .unrecognised3

/-- The `UNIT` field of a period unit (R124). -/
def UnitCode.code : UnitCode → BitVec 2
  | .microseconds => 0
  | .milliseconds => 1
  | .unrecognised2 => 2
  | .unrecognised3 => 3

/-- A streaming mode from the `MODE` bit of STR_START (R124). -/
def EngineMode.ofBit (b : Bool) : EngineMode := if b then .interrupt else .polling

/-- The `MODE` bit of a streaming mode (R124). -/
def EngineMode.bit : EngineMode → Bool
  | .polling => false
  | .interrupt => true

/-- A block from a block word E(1+k) (R133). -/
def Block.ofWord (w : Word) : Block := { reg := field w 8 8, cnt := field w 0 8 }


/-- The block words of a STR_CFG frame, or `none` when a reserved bit of one is not 0 (R133, R138). -/
def blocksOfWords : List Word → Option (List Block)
  | [] => some []
  | w :: ws =>
    if field w 16 16 = 0 then
      match blocksOfWords ws with
      | some bs => some (Block.ofWord w :: bs)
      | none => none
    else none

/-- The extension words of a STR_CFG frame (R133), given its header (R132). -/
def decodeStrCfg (h : Word) : List Word → Option Instr
  | [] => none
  | e0 :: ws =>
    if field e0 8 2 = 0 then
      match blocksOfWords ws with
      | some bs =>
        some (.strCfg (field h 16 4) (BusRef.ofCode (field h 8 8)) (field h 0 8) (field e0 16 16)
          (UnitCode.ofCode (field e0 14 2)) (flag e0 13) (flag e0 12) (Policy.ofCode (field e0 10 2)) (field e0 0 8) bs)
      | none => none
    else none

/-- The command of a frame whose opcode and length are right, or `none` when a reserved field is not 0 (R125 to R135,
R138). -/
def decodeFields (op : Opcode) (h : Word) (ext : List Word) : Option Instr :=
  match op with
  | .busCfg =>
    if field h 4 4 = 0 then some (.busCfg (BusRef.ofCode (fieldA h)) (field h 8 8) (field h 0 4)) else none
  | .busCfgw =>
    if field h 4 3 = 0 then some (.busCfgw (BusRef.ofCode (fieldA h)) (field h 8 8) (flag h 7) (field h 0 4)) else none
  | .busDecfg => if field h 0 16 = 0 then some (.busDecfg (BusRef.ofCode (fieldA h))) else none
  | .tmrCfg => if field h 8 8 = 0 then some (.tmrCfg (fieldA h) (field h 0 8)) else none
  | .tmrStart =>
    match ext with
    | [] => none
    | e0 :: _ => if field h 1 15 = 0 then some (.tmrStart (fieldA h) (flag h 0) e0) else none
  | .tmrStop => if field h 0 16 = 0 then some (.tmrStop (fieldA h)) else none
  | .tmrReset => if field h 0 16 = 0 then some (.tmrReset (fieldA h)) else none
  | .intAttach =>
    if field h 10 6 = 0 then some (.intAttach (fieldA h) (Policy.ofCode (field h 8 2)) (field h 0 8)) else none
  | .intDetach => if field h 0 16 = 0 then some (.intDetach (fieldA h)) else none
  | .strCfg => decodeStrCfg h ext
  | .strStartStop =>
    if field h 18 6 = 0 then
      if flag h 16 then some (.strStart (EngineMode.ofBit (flag h 17)) (field h 0 16))
      else some (.strStop (EngineMode.ofBit (flag h 17)) (field h 0 16))
    else none
  | .strRead => some (.strRead (fieldA h) (field h 0 16))
  | .getMs => if field h 0 24 = 0 then some .getMs else none
  | .getUs => if field h 0 24 = 0 then some .getUs else none

/-- The command that a frame carries, or the name of what is wrong with it (R121, R138, R143). -/
def decode (frame : List Word) : Except DecodeError Instr :=
  match frame with
  | [] => .error .noHeader
  | h :: ext =>
    match Opcode.ofCode? (opcOf h) with
    | none => if ext.isEmpty then .error (.unknownOpcode (opcOf h)) else .error (.wrongLength (opcOf h))
    | some op =>
      if frame.length = frameWords h then
        match decodeFields op h ext with
        | some i => .ok i
        | none => .error (.reservedBits (opcOf h))
      else .error (.wrongLength (opcOf h))

/-- A 32-bit word from four bytes, the least significant first (R142). -/
def wordOfBytes (b0 b1 b2 b3 : Byte) : Word := b3 ++ b2 ++ b1 ++ b0

/-- The four bytes of a word on a byte-oriented transport, the least significant first (R142). -/
def bytesOfWord (w : Word) : List Byte := [field w 0 8, field w 8 8, field w 16 8, field w 24 8]

/-- The words of a byte stream and the bytes left over (R142). -/
def wordsOfBytes : List Byte → List Word × List Byte
  | b0 :: b1 :: b2 :: b3 :: bs => (wordOfBytes b0 b1 b2 b3 :: (wordsOfBytes bs).1, (wordsOfBytes bs).2)
  | bs => ([], bs)

/-- Word k of an instruction given as a number whose bit 0 is the least significant bit of the first word. -/
def wordOfNumber (n k : Nat) : Word := BitVec.ofNat 32 (n / 2 ^ (32 * k))

/-- The frame of an instruction given as a number of `nbits` bits, the bits above them 0: as many words as its header
asks for (R121). -/
def frameOfNumber (nbits w : Nat) : List Word :=
  (List.range (frameWords (wordOfNumber (w % 2 ^ nbits) 0))).map (wordOfNumber (w % 2 ^ nbits))

/-- The command the decoder reads from an instruction numbered as spec/opcode_table.json numbers its bits. -/
def decodeTableWord (nbits w : Nat) : Option Instr :=
  match decode (frameOfNumber nbits w) with
  | .ok i => some i
  | .error _ => none

/-- The opcode of a command (R121). -/
def Instr.opcode : Instr → Opcode
  | .busCfg _ _ _ => .busCfg
  | .busCfgw _ _ _ _ => .busCfgw
  | .busDecfg _ => .busDecfg
  | .tmrCfg _ _ => .tmrCfg
  | .tmrStart _ _ _ => .tmrStart
  | .tmrStop _ => .tmrStop
  | .tmrReset _ => .tmrReset
  | .intAttach _ _ _ => .intAttach
  | .intDetach _ => .intDetach
  | .strCfg _ _ _ _ _ _ _ _ _ _ => .strCfg
  | .strStart _ _ => .strStartStop
  | .strStop _ _ => .strStartStop
  | .strRead _ _ => .strRead
  | .getMs => .getMs
  | .getUs => .getUs

/-- A field value placed at bit `lo` of a word (R11); the header and extension words below are the `|||` of their
fields, so that every reserved bit is 0. -/
def place (v : BitVec n) (lo : Nat) : Word := v.setWidth 32 <<< lo

/-- The block word of a block (R133). -/
def Block.word (b : Block) : Word := place b.reg 8 ||| place b.cnt 0

/-- The header word of a command (R121, R125 to R135). -/
def Instr.header : Instr → Word
  | .busCfg bus speed bmode => place 0x01#8 24 ||| place bus.code 16 ||| place speed 8 ||| place bmode 0
  | .busCfgw bus speed w16 bmode =>
    place 0x02#8 24 ||| place bus.code 16 ||| place speed 8 ||| place (BitVec.ofBool w16) 7 ||| place bmode 0
  | .busDecfg bus => place 0x03#8 24 ||| place bus.code 16
  | .tmrCfg inst tag => place 0x10#8 24 ||| place inst 16 ||| place tag 0
  | .tmrStart inst oneshot _ => place 0x11#8 24 ||| place inst 16 ||| place (BitVec.ofBool oneshot) 0
  | .tmrStop inst => place 0x12#8 24 ||| place inst 16
  | .tmrReset inst => place 0x13#8 24 ||| place inst 16
  | .intAttach pin policy tag => place 0x20#8 24 ||| place pin 16 ||| place policy.code 8 ||| place tag 0
  | .intDetach pin => place 0x21#8 24 ||| place pin 16
  | .strCfg chan bus dev _ _ _ _ _ _ blocks =>
    place 0x30#8 24 ||| place (BitVec.ofNat 4 blocks.length) 20 ||| place chan 16 ||| place bus.code 8 ||| place dev 0
  | .strStart mode count => place 0x31#8 24 ||| place (BitVec.ofBool mode.bit) 17 ||| place 1#1 16 ||| place count 0
  | .strStop mode count => place 0x31#8 24 ||| place (BitVec.ofBool mode.bit) 17 ||| place count 0
  | .strRead chf maxRecords => place 0x32#8 24 ||| place chf 16 ||| place maxRecords 0
  | .getMs => place 0x40#8 24
  | .getUs => place 0x41#8 24

/-- The word E0 of a STR_CFG frame (R133). -/
def strCfgWord (period : BitVec 16) (unit : UnitCode) (tsEn intEn : Bool) (intPol : Policy) (intPin : Byte) : Word :=
  place period 16 ||| place unit.code 14 ||| place (BitVec.ofBool tsEn) 13 ||| place (BitVec.ofBool intEn) 12 |||
    place intPol.code 10 ||| place intPin 0

/-- The extension words of a command (R129, R133). -/
def Instr.extension : Instr → List Word
  | .tmrStart _ _ timeout => [timeout]
  | .strCfg _ _ _ period unit tsEn intEn intPol intPin blocks =>
    strCfgWord period unit tsEn intEn intPol intPin :: blocks.map Block.word
  | .busCfg _ _ _ | .busCfgw _ _ _ _ | .busDecfg _ | .tmrCfg _ _ | .tmrStop _ | .tmrReset _ | .intAttach _ _ _
  | .intDetach _ | .strStart _ _ | .strStop _ _ | .strRead _ _ | .getMs | .getUs => []

/-- The frame of a command. -/
def encode (i : Instr) : List Word := i.header :: i.extension

/-- `match` of the command's row in spec/opcode_table.json (R143). -/
def Instr.rowMatch : Instr → Word
  | .busCfg _ _ _ => 0x01000000
  | .busCfgw _ _ _ _ => 0x02000000
  | .busDecfg _ => 0x03000000
  | .tmrCfg _ _ => 0x10000000
  | .tmrStart _ _ _ => 0x11000000
  | .tmrStop _ => 0x12000000
  | .tmrReset _ => 0x13000000
  | .intAttach _ _ _ => 0x20000000
  | .intDetach _ => 0x21000000
  | .strCfg _ _ _ _ _ _ _ _ _ _ => 0x30000000
  | .strStart _ _ => 0x31010000
  | .strStop _ _ => 0x31000000
  | .strRead _ _ => 0x32000000
  | .getMs => 0x40000000
  | .getUs => 0x41000000

/-- `mask` of the command's row in spec/opcode_table.json (R143). -/
def Instr.rowMask : Instr → Word
  | .busCfg _ _ _ => 0xFF0000F0
  | .busCfgw _ _ _ _ => 0xFF000070
  | .busDecfg _ => 0xFF00FFFF
  | .tmrCfg _ _ => 0xFF00FF00
  | .tmrStart _ _ _ => 0xFF00FFFE
  | .tmrStop _ => 0xFF00FFFF
  | .tmrReset _ => 0xFF00FFFF
  | .intAttach _ _ _ => 0xFF00FC00
  | .intDetach _ => 0xFF00FFFF
  | .strCfg _ _ _ _ _ _ _ _ _ _ => 0xFF000000
  | .strStart _ _ => 0xFFFD0000
  | .strStop _ _ => 0xFFFD0000
  | .strRead _ _ => 0xFF000000
  | .getMs => 0xFFFFFFFF
  | .getUs => 0xFFFFFFFF

end Sys2Proof
end

