-- ==== Sys2Proof/Config.lean ====
section
/-! DEFINITION. The parameters of the Streaming Cadence Engine (00_scope.md R5, R6), its status symbols
(30_encoding.md R137), the inputs its environment gives it, and the free values: constants with no body, so that no
proof can see what they are. -/

namespace Sys2Proof

/-- The status symbols of R137, in the order of its table. -/
inductive Status where
  | success
  | eFailure
  | eIo
  | eInit
  | eDevNotFound
  | eClaim
  | eAlloc
  | eNotSupported
  | eNullPtr
  | eWrongResponse
  | eSpiNotConfigured
  | eI2cNotConfigured
  | eSpiInvalidBus
  | eI2cInvalidBus
  | eSpiAlreadyConfigured
  | eI2cAlreadyConfigured
  | eSpiConfigFailed
  | eI2cConfigFailed
  | eTimerInitFailed
  | eTimerInvalidInstance
  | eStorageReset
  | eStorageRead
  | eInitFailed
deriving DecidableEq, Repr, Inhabited

/-- Every status symbol, in the order of R137's table. -/
def Status.all : List Status :=
  [.success, .eFailure, .eIo, .eInit, .eDevNotFound, .eClaim, .eAlloc, .eNotSupported, .eNullPtr, .eWrongResponse,
   .eSpiNotConfigured, .eI2cNotConfigured, .eSpiInvalidBus, .eI2cInvalidBus, .eSpiAlreadyConfigured,
   .eI2cAlreadyConfigured, .eSpiConfigFailed, .eI2cConfigFailed, .eTimerInitFailed, .eTimerInvalidInstance,
   .eStorageReset, .eStorageRead, .eInitFailed]

/-- A value of the parameter `STATUS_CODE` (R5, R137): one signed 8-bit value per status symbol. -/
structure StatusCodes where
  success : Byte
  eFailure : Byte
  eIo : Byte
  eInit : Byte
  eDevNotFound : Byte
  eClaim : Byte
  eAlloc : Byte
  eNotSupported : Byte
  eNullPtr : Byte
  eWrongResponse : Byte
  eSpiNotConfigured : Byte
  eI2cNotConfigured : Byte
  eSpiInvalidBus : Byte
  eI2cInvalidBus : Byte
  eSpiAlreadyConfigured : Byte
  eI2cAlreadyConfigured : Byte
  eSpiConfigFailed : Byte
  eI2cConfigFailed : Byte
  eTimerInitFailed : Byte
  eTimerInvalidInstance : Byte
  eStorageReset : Byte
  eStorageRead : Byte
  eInitFailed : Byte
deriving DecidableEq, Repr

/-- The code that `STATUS_CODE` gives a status symbol (R136, R137). -/
def StatusCodes.code (c : StatusCodes) : Status → Byte
  | .success => c.success
  | .eFailure => c.eFailure
  | .eIo => c.eIo
  | .eInit => c.eInit
  | .eDevNotFound => c.eDevNotFound
  | .eClaim => c.eClaim
  | .eAlloc => c.eAlloc
  | .eNotSupported => c.eNotSupported
  | .eNullPtr => c.eNullPtr
  | .eWrongResponse => c.eWrongResponse
  | .eSpiNotConfigured => c.eSpiNotConfigured
  | .eI2cNotConfigured => c.eI2cNotConfigured
  | .eSpiInvalidBus => c.eSpiInvalidBus
  | .eI2cInvalidBus => c.eI2cInvalidBus
  | .eSpiAlreadyConfigured => c.eSpiAlreadyConfigured
  | .eI2cAlreadyConfigured => c.eI2cAlreadyConfigured
  | .eSpiConfigFailed => c.eSpiConfigFailed
  | .eI2cConfigFailed => c.eI2cConfigFailed
  | .eTimerInitFailed => c.eTimerInitFailed
  | .eTimerInvalidInstance => c.eTimerInvalidInstance
  | .eStorageReset => c.eStorageReset
  | .eStorageRead => c.eStorageRead
  | .eInitFailed => c.eInitFailed

/-- The REF codes of R137's table: 0 for SUCCESS, then -1 to -22 in two's complement. -/
def StatusCodes.ref : StatusCodes where
  success := 0x00
  eFailure := 0xFF
  eIo := 0xFE
  eInit := 0xFD
  eDevNotFound := 0xFC
  eClaim := 0xFB
  eAlloc := 0xFA
  eNotSupported := 0xF9
  eNullPtr := 0xF8
  eWrongResponse := 0xF7
  eSpiNotConfigured := 0xF6
  eI2cNotConfigured := 0xF5
  eSpiInvalidBus := 0xF4
  eI2cInvalidBus := 0xF3
  eSpiAlreadyConfigured := 0xF2
  eI2cAlreadyConfigured := 0xF1
  eSpiConfigFailed := 0xF0
  eI2cConfigFailed := 0xEF
  eTimerInitFailed := 0xEE
  eTimerInvalidInstance := 0xED
  eStorageReset := 0xEC
  eStorageRead := 0xEB
  eInitFailed := 0xEA

/-- What R137 lets a model rely on: the map is injective, SUCCESS is 0 and every other code is negative. -/
abbrev StatusCodes.Ok (c : StatusCodes) : Prop :=
  (Status.all.map c.code).Nodup ∧ c.success = 0 ∧ ∀ st ∈ Status.all, st ≠ .success → (c.code st).msb = true

/-- The two values of the parameter `DISPATCH_MODEL` (R301). -/
inductive DispatchModel where
  | prompt
  | fair
deriving DecidableEq, Repr, Inhabited

/-- The parameters of R5. They are configuration and not state: no step changes them. -/
structure Params where
  nI2c : Nat
  nSpi : Nat
  /-- `SPI16_OK`, one entry per SPI bus. -/
  spi16Ok : List Bool
  nTimers : Nat
  streamTimer : Nat
  nPins : Nat
  nChannels : Nat
  maxBlocks : Nat
  recCap : Nat
  bufCap : Nat
  trigqDepth : Nat
  statusCode : StatusCodes
  dispatchModel : DispatchModel
  /-- `PIN_RESET_LEVEL`, one entry per pin. -/
  pinResetLevel : List Bool
deriving DecidableEq, Repr

/-- The constraints of R6 on the parameters, with `SPI16_OK` and `PIN_RESET_LEVEL` of the lengths R5 gives them and
`STATUS_CODE` as R137 requires. -/
abbrev Params.Ok (p : Params) : Prop :=
  (1 ≤ p.nI2c ∧ p.nI2c ≤ 128) ∧ (1 ≤ p.nSpi ∧ p.nSpi ≤ 128) ∧ (1 ≤ p.nTimers ∧ p.nTimers ≤ 256) ∧
  p.streamTimer < p.nTimers ∧ (1 ≤ p.nPins ∧ p.nPins ≤ 256) ∧ (1 ≤ p.nChannels ∧ p.nChannels ≤ 16) ∧
  (1 ≤ p.maxBlocks ∧ p.maxBlocks ≤ 15) ∧ (1 ≤ p.recCap ∧ p.recCap ≤ 255) ∧
  (hdrBytes + p.recCap ≤ p.bufCap ∧ p.bufCap ≤ 65535) ∧ p.nTimers + 1 ≤ p.trigqDepth ∧
  p.spi16Ok.length = p.nSpi ∧ p.pinResetLevel.length = p.nPins ∧ p.statusCode.Ok

/-- The reference configuration REF of R5. -/
def Params.ref : Params where
  nI2c := 2
  nSpi := 2
  spi16Ok := [true, false]
  nTimers := 4
  streamTimer := 0
  nPins := 32
  nChannels := 4
  maxBlocks := 4
  recCap := 64
  bufCap := 4096
  trigqDepth := 16
  statusCode := StatusCodes.ref
  dispatchModel := .prompt
  pinResetLevel := List.replicate 32 false

/-- The configuration SMALL of R5, which differs from REF in REC_CAP and BUF_CAP. -/
def Params.small : Params := { Params.ref with recCap := 12, bufCap := 32 }

/-- One `BusRead(bus, dev, reg, n)` as the environment sees it (R91), with the bus's current configuration, on which
the answer may depend (R91, U19). -/
structure BusRequest where
  bus : BusRef
  dev : Byte
  reg : Byte
  n : Nat
  speed : Byte
  mode : BitVec 4
  width16 : Bool
deriving DecidableEq, Repr, Inhabited

/-- One answer of the bus target (R91): bytes or a failure. -/
inductive BusAnswer where
  | ok (bytes : List Byte)
  | fail
deriving DecidableEq, Repr, Inhabited

/-- One step an agent of R8 and R9 takes, with the inputs the environment gives it. -/
inductive AgentStep where
  /-- `UsTick` of the Time agent (R285). -/
  | usTick
  /-- `PinChange(p, v)` of the Pins agent (R286). -/
  | pinChange (p : Nat) (v : Bool)
  /-- `Dispatch` of the Dispatcher (R289). -/
  | dispatch
  /-- The host offers these words to the command port (R120, log 15) and the foreground takes one step (R9). -/
  | host (words : List Word)
  /-- The reset input (R330). -/
  | reset
deriving DecidableEq, Repr, Inhabited

/-- The handler of a bound pin (R40). -/
inductive PinTarget where
  | ext (tag : Byte)
  | stream
deriving DecidableEq, Repr, Inhabited

/-- FREE VALUE (U3, log 7): what the bus target answers to its k-th unscripted BusRead; `none` is Fail. -/
opaque Config.busOracle : Nat → BusRequest → Option (Nat → Byte)

/-- FREE VALUE (R9, log 2): the k-th agent step that no schedule names. -/
opaque Config.agentStep : Nat → AgentStep

/-- FREE VALUE (U2, log 5): `speed`, `mode`, `width16` of a bus after BUS_DECFG (R163). -/
opaque Config.staleBus : Nat → Byte × BitVec 4 × Bool

/-- FREE VALUE (U2, log 5): `timeout`, `cnt`, `oneshot` of timer i after TMR_STOP, one-shot expiry or the stop
procedure (R182, R216, R285). -/
opaque Config.staleTimer : Nat → Nat → BitVec 32 × BitVec 32 × Bool

/-- FREE VALUE (U2, log 5): `policy` and `target` of pin p after INT_DETACH or the stop procedure (R201, R216). -/
opaque Config.staleBinding : Nat → Nat → Policy × PinTarget

/-- FREE VALUE (R40, R202, log 8): whether an edge qualifies under the reserved policy. -/
opaque Config.reservedQualifies : Bool → Bool

end Sys2Proof
end

