-- ==== Sys2Proof/Machine/State.lean ====
section
/-! DEFINITION. The state of the Streaming Cadence Engine (10_state.md), plain data, the reasons a step can stop, and the
state after reset (R55, R330). -/

namespace Sys2Proof.Machine

/-- One entry of `I2CBUS` (R34). -/
structure I2cBus where
  configured : Bool
  speed : Byte
  mode : BitVec 4
deriving DecidableEq, Repr

/-- One entry of `SPIBUS` (R35). -/
structure SpiBus where
  configured : Bool
  speed : Byte
  mode : BitVec 4
  width16 : Bool
deriving DecidableEq, Repr

/-- The three states of a timer instance (R37, R38). -/
inductive TimerState where
  | stopped
  | ready
  | running
deriving DecidableEq, Repr

/-- Who receives a timer's fire (R37). -/
inductive TimerTarget where
  | none
  | ext (tag : Byte)
  | stream
deriving DecidableEq, Repr

/-- One entry of `TMR` (R37). -/
structure Timer where
  state : TimerState
  target : TimerTarget
  timeout : BitVec 32
  cnt : BitVec 32
  oneshot : Bool
deriving DecidableEq, Repr

/-- One entry of `BIND` (R40). -/
structure Binding where
  valid : Bool
  policy : Policy
  target : PinTarget
deriving DecidableEq, Repr

/-- The one-bit unit of a stored sampling period (R41). -/
inductive TimeUnit where
  | microseconds
  | milliseconds
deriving DecidableEq, Repr

/-- One entry of `CH`: the descriptor (R41; `nb` is the length of `blocks`) and the run-time fields `active`,
`produced`, `div`, `divcnt` (R42). -/
structure Channel where
  valid : Bool
  bus : BusRef
  dev : Byte
  blocks : List Block
  period : BitVec 16
  unit : TimeUnit
  intEn : Bool
  intPin : Byte
  intPol : Policy
  tsEn : Bool
  active : Bool
  produced : BitVec 16
  div : BitVec 32
  divcnt : BitVec 32
deriving DecidableEq, Repr

/-- `ENG` (R43). -/
structure Engine where
  armed : Bool
  amode : EngineMode
  cap : BitVec 16
deriving DecidableEq, Repr

/-- The three states of the engine and of a channel (R43). -/
inductive EngineState where
  | unconfigured
  | configured
  | armed
deriving DecidableEq, Repr

/-- The bytes of the ring space that have been written, by offset (R46, R80). An offset that is not listed holds no
value, and a read of it is a fault (R56, U1, log 3). -/
abbrev Memory := List Host.Cell

/-- The response ring (R46). -/
structure Ring where
  buf : Memory
  head : Nat
  tail : Nat
  used : Nat
  ovf : Bool
deriving DecidableEq, Repr

/-- A trigger source (R49). -/
inductive TrigSource where
  | timer (i : Nat)
  | pin (p : Nat)
deriving DecidableEq, Repr

/-- A trigger entry (R49). -/
structure Trigger where
  src : TrigSource
  val : Bool
  ts : BitVec 64
deriving DecidableEq, Repr

/-- `RD`, the read in progress (R52). -/
structure ReadState where
  busy : Bool
  filter : Byte
  left : BitVec 16
  count : BitVec 16
  out : List Byte
deriving DecidableEq, Repr

/-- One entry of the callback trace `EVT` (R53). -/
inductive Event where
  | timerCb (tag : Byte) (inst : Nat)
  | pinCb (tag : Byte) (pin : Nat) (val : Bool) (ts : BitVec 64)
deriving DecidableEq, Repr

/-- One entry `BUS_RD` of the bus trace `BUSLOG` (R53, R91). -/
structure BusRd where
  bus : BusRef
  dev : Byte
  reg : Byte
  n : Nat
  result : BusAnswer
deriving DecidableEq, Repr

/-- The state. The fields up to `busLog` are the spec's (10_state.md), the rest the model's own: the parameters, which
no step writes, and what the environment does next (logs 2, 5, 6, 7, 15). -/
structure State where
  /-- The parameters of R5: configuration, not state. -/
  cfg : Params
  /-- `US` (R32). -/
  us : BitVec 64
  /-- `I2CBUS` (R34). -/
  i2c : List I2cBus
  /-- `SPIBUS` (R35). -/
  spi : List SpiBus
  /-- `TMR` (R37). -/
  tmr : List Timer
  /-- `PINLVL` (R39). -/
  pinLvl : List Bool
  /-- `BIND` (R40). -/
  bind : List Binding
  /-- `CH` (R41, R42). -/
  ch : List Channel
  /-- `ENG` (R43). -/
  eng : Engine
  /-- `BUF`, `head`, `tail`, `used`, `OVF` (R46, R48). -/
  ring : Ring
  /-- `TRIGQ`, the oldest first (R49). -/
  trigq : List Trigger
  /-- `TRIG_OVERRUN` (R50). -/
  trigOverrun : Bool
  /-- `RD` (R52). -/
  rd : ReadState
  /-- `RSP`, the oldest first (R53). -/
  rsp : List (List Word)
  /-- `EVT`, the oldest first (R53). -/
  evt : List Event
  /-- `BUSLOG`, the oldest first (R53). -/
  busLog : List BusRd
  /-- The words of one frame that the command port has accepted and the foreground has not taken (R120, R10, log 15). -/
  cmdPort : List Word
  /-- The agent steps that happen next (R9). -/
  sched : List AgentStep
  /-- The bus target's answers to the next BusReads (R91). -/
  busScript : List BusAnswer
  /-- How many agent steps came from the free value `Config.agentStep`. -/
  drawn : Nat
  /-- How many free values were used. -/
  free : Nat
deriving DecidableEq, Repr

/-- Why the machine stops with a fault. The SCE itself never stops (R280): each of these is the model's own, is safe,
and is raised only in states no run from reset reaches (R47, R56, R57). -/
inductive Fault where
  /-- Raised by a ring read of a byte that nothing has written (R56, U1). Safe. -/
  | ringUnwritten
  /-- Raised by a ring read at an offset outside 0..BUF_CAP-1 (R80, R84). Safe. -/
  | ringOffset
  /-- Raised by a ring operation that finds a record larger than the bytes in use, or none where R86 needs one
  (R47). Safe. -/
  | ringMalformed
  /-- Raised by the tick sequencer for a trigger whose source the armed mode has no DueSet for (R251, R252). Safe. -/
  | noDueSet
deriving DecidableEq, Repr

/-- Why the model gives an instruction no meaning. -/
inductive Refusal where
  /-- Raised by `exec` for an instruction that has no meaning yet. Safe. -/
  | notModelled (mnemonic : String)
deriving DecidableEq, Repr

/-- The outcome of a step or of an instruction. -/
abbrev Result := Host.Outcome State Fault Refusal

/-- An I2C bus after reset: unconfigured (R55); the other fields are log 1. -/
def I2cBus.reset : I2cBus := { configured := false, speed := 0, mode := 0 }

/-- An SPI bus after reset: unconfigured (R55); the other fields are log 1. -/
def SpiBus.reset : SpiBus := { configured := false, speed := 0, mode := 0, width16 := false }

/-- A timer after reset: STOPPED with target NONE (R55); the other fields are log 1. -/
def Timer.reset : Timer := { state := .stopped, target := .none, timeout := 0, cnt := 0, oneshot := false }

/-- A pin binding after reset: none (R55); the other fields are log 1. -/
def Binding.reset : Binding := { valid := false, policy := .onChange, target := .ext 0 }

/-- A channel after reset: UNCONFIGURED and not active (R55); the other fields are log 1. -/
def Channel.reset : Channel where
  valid := false
  bus := { kind := .i2c, idx := 0 }
  dev := 0
  blocks := []
  period := 0
  unit := .microseconds
  intEn := false
  intPin := 0
  intPol := .onChange
  tsEn := false
  active := false
  produced := 0
  div := 0
  divcnt := 0

/-- The state of 10_state.md R55 under the parameters `p`, with an environment that has scheduled nothing. -/
def State.resetWith (p : Params) : State where
  cfg := p
  us := 0
  i2c := List.replicate p.nI2c I2cBus.reset
  spi := List.replicate p.nSpi SpiBus.reset
  tmr := List.replicate p.nTimers Timer.reset
  pinLvl := p.pinResetLevel
  bind := List.replicate p.nPins Binding.reset
  ch := List.replicate p.nChannels Channel.reset
  eng := { armed := false, amode := .polling, cap := 0 }
  ring := { buf := [], head := 0, tail := 0, used := 0, ovf := false }
  trigq := []
  trigOverrun := false
  rd := { busy := false, filter := 0, left := 0, count := 0, out := [] }
  rsp := []
  evt := []
  busLog := []
  cmdPort := []
  sched := []
  busScript := []
  drawn := 0
  free := 0

/-- The machine right after reset (R55, R330), in the reference configuration REF (R5, log 6). -/
def State.reset : State := State.resetWith Params.ref

end Sys2Proof.Machine
end

