-- ==== Sys2Proof/Machine/Ops.lean ====
section
/-! DEFINITION. The named operations over the state: the entries of the tables, the bytes of the ring space, responses
and rejections (00_scope.md R12), the free values, and the trigger mechanism's Latch and Purge (60_exceptions.md R287,
R288), which is what the SCE has in place of taking an exception. -/

namespace Sys2Proof.Machine

/-- `I2CBUS[i]` (R34). -/
def State.i2cBus (s : State) (i : Nat) : I2cBus := s.i2c.getD i I2cBus.reset

/-- `SPIBUS[i]` (R35). -/
def State.spiBus (s : State) (i : Nat) : SpiBus := s.spi.getD i SpiBus.reset

/-- `TMR[i]` (R37). -/
def State.timer (s : State) (i : Nat) : Timer := s.tmr.getD i Timer.reset

/-- `PINLVL[p]` (R39). -/
def State.pinLevel (s : State) (p : Nat) : Bool := s.pinLvl.getD p false

/-- `BIND[p]` (R40). -/
def State.binding (s : State) (p : Nat) : Binding := s.bind.getD p Binding.reset

/-- `CH[c]` (R41). -/
def State.channel (s : State) (c : Nat) : Channel := s.ch.getD c Channel.reset

/-- `I2CBUS[i] <- b`. -/
def State.setI2cBus (i : Nat) (b : I2cBus) (s : State) : State := { s with i2c := s.i2c.set i b }

/-- `SPIBUS[i] <- b`. -/
def State.setSpiBus (i : Nat) (b : SpiBus) (s : State) : State := { s with spi := s.spi.set i b }

/-- `TMR[i] <- t`. -/
def State.setTimer (i : Nat) (t : Timer) (s : State) : State := { s with tmr := s.tmr.set i t }

/-- `PINLVL[p] <- v`. -/
def State.setPinLevel (p : Nat) (v : Bool) (s : State) : State := { s with pinLvl := s.pinLvl.set p v }

/-- `BIND[p] <- b`. -/
def State.setBinding (p : Nat) (b : Binding) (s : State) : State := { s with bind := s.bind.set p b }

/-- `CH[c] <- d`. -/
def State.setChannel (c : Nat) (d : Channel) (s : State) : State := { s with ch := s.ch.set c d }

/-- `RD <- r`. -/
def State.setRead (r : ReadState) (s : State) : State := { s with rd := r }

/-- `ENG <- e`. -/
def State.setEngine (e : Engine) (s : State) : State := { s with eng := e }

/-- The ring, with OVF, becomes `r`. -/
def State.setRing (r : Ring) (s : State) : State := { s with ring := r }

/-- One free value is used up (log 5). -/
def State.drawFree (s : State) : State := { s with free := s.free + 1 }

/-- The byte of the ring space at an offset, if one was written (R46, U1). -/
def Memory.read : Memory → Nat → Option Byte
  | [], _ => none
  | (x, b) :: m, a => if x = a then some b else Memory.read m a

/-- One byte of the ring space is written; the offsets stay strictly rising. -/
def Memory.write : Memory → Nat → Byte → Memory
  | [], a, v => [(a, v)]
  | (x, b) :: m, a, v =>
    if a < x then (a, v) :: (x, b) :: m
    else if x = a then (a, v) :: m
    else (x, b) :: Memory.write m a v

/-- The canonical form of the ring space: offsets strictly rising. An unlisted byte reads as no value, so no entry can
equal it (log 3). -/
abbrev Memory.wf (m : Memory) : Prop := m.Pairwise (fun x y => x.1 < y.1)

/-- The bytes of a number in k bytes, the least significant first (R81). -/
def leBytes : Nat → Nat → List Byte
  | 0, _ => []
  | k + 1, n => BitVec.ofNat 8 n :: leBytes k (n / 256)

/-- `LE64(ts)` (R255): the 8 bytes of a timestamp, the least significant first. -/
def le64 (ts : BitVec 64) : List Byte := leBytes tsBytes ts.toNat

/-- Record bytes packed into 32-bit words, byte k in word k div 4 at bits 8·(k mod 4) up, the unused high bytes of the
last word 0 (R136, R81). -/
def packWords : List Byte → List Word
  | [] => []
  | [b0] => [wordOfBytes b0 0 0 0]
  | [b0, b1] => [wordOfBytes b0 b1 0 0]
  | [b0, b1, b2] => [wordOfBytes b0 b1 b2 0]
  | b0 :: b1 :: b2 :: b3 :: bs => wordOfBytes b0 b1 b2 b3 :: packWords bs

/-- The first word `R0` of a response frame: the opcode echoed, the status code, COUNT (R136). -/
def responseHead (opc : Byte) (code : Byte) (count : BitVec 16) : Word :=
  place opc 24 ||| place code 16 ||| place count 0

/-- `respond(op, st, ...)` (R12, R136): one response frame. -/
def State.respond (opc : Byte) (st : Status) (count : BitVec 16) (payload : List Word) (s : State) : State :=
  { s with rsp := s.rsp ++ [responseHead opc (s.cfg.statusCode.code st) count :: payload] }

/-- `respond(op, SUCCESS)` with no payload ends the command (R12). -/
def succeed (op : Opcode) (s : State) : Result := .next (s.respond op.code .success 0 [])

/-- `reject(op, st)` (R12): the response alone, no field of the state written. -/
def reject (op : Opcode) (st : Status) (s : State) : Result := .next (s.respond op.code st 0 [])

/-- `emit EVT(...)` (R12, R53). -/
def State.emit (e : Event) (s : State) : State := { s with evt := s.evt ++ [e] }

/-- `Latch(src, val)` (R287): the trigger enters TRIGQ stamped with US, or is dropped and TRIG_OVERRUN set when TRIGQ is
full. -/
def State.latch (src : TrigSource) (val : Bool) (s : State) : State :=
  if s.trigq.length < s.cfg.trigqDepth then { s with trigq := s.trigq ++ [{ src := src, val := val, ts := s.us }] }
  else { s with trigOverrun := true }

/-- The entries of TRIGQ whose source is none of `srcs` (R288). -/
def purgeSources (srcs : List TrigSource) (q : List Trigger) : List Trigger :=
  q.filter fun e => !srcs.contains e.src

/-- `Purge(src)` (R288). -/
def State.purge (src : TrigSource) (s : State) : State := { s with trigq := purgeSources [src] s.trigq }

end Sys2Proof.Machine
end

