-- ==== Sys2Proof/Machine/Operands.lean ====
section
/-! DEFINITION. The operand forms of the commands: bus references (10_state.md R36), trigger policies (R202), periods and
their units (R41, R211), the mode of a channel (R44), and the statuses that depend on a bus kind (R137). -/

namespace Sys2Proof.Machine

/-- A bus reference is valid when its index is below the number of buses of its kind (R36). -/
def busValid (p : Params) (r : BusRef) : Bool :=
  match r.kind with
  | .i2c => decide (r.idx.toNat < p.nI2c)
  | .spi => decide (r.idx.toNat < p.nSpi)

/-- `configured(ref)`, the configured flag of `BusCfg(ref)` (R36). -/
def State.busConfigured (s : State) (r : BusRef) : Bool :=
  match r.kind with
  | .i2c => (s.i2cBus r.idx.toNat).configured
  | .spi => (s.spiBus r.idx.toNat).configured

/-- `INVALID_BUS(k)` (R137). -/
def invalidBus : BusKind → Status
  | .i2c => .eI2cInvalidBus
  | .spi => .eSpiInvalidBus

/-- `ALREADY_CONFIGURED(k)` (R137). -/
def alreadyConfigured : BusKind → Status
  | .i2c => .eI2cAlreadyConfigured
  | .spi => .eSpiAlreadyConfigured

/-- `NOT_CONFIGURED(k)` (R137). -/
def notConfigured : BusKind → Status
  | .i2c => .eI2cNotConfigured
  | .spi => .eSpiNotConfigured

/-- `CONFIG_FAILED(k)` (R137). -/
def configFailed : BusKind → Status
  | .i2c => .eI2cConfigFailed
  | .spi => .eSpiConfigFailed

/-- `qualifies(policy, val)` (R202): `val` is the level after the edge. The reserved policy, which no valid binding and
no interrupt channel holds, is a free value (log 8). -/
def qualifies (policy : Policy) (val : Bool) : Bool :=
  match policy with
  | .onChange => true
  | .risingEdge => val
  | .fallingEdge => !val
  | .reserved => Config.reservedQualifies val

/-- The stored unit `UNIT[0]` (R210). -/
def timeUnit : UnitCode → TimeUnit
  | .microseconds => .microseconds
  | .milliseconds => .milliseconds
  | .unrecognised2 => .microseconds
  | .unrecognised3 => .milliseconds

/-- A `UNIT` of 2 or 3 is unrecognised (R124). -/
def unitRecognised : UnitCode → Bool
  | .microseconds => true
  | .milliseconds => true
  | .unrecognised2 => false
  | .unrecognised3 => false

/-- `total(c)`, the sum of the byte counts of a block list, computed without truncation (R45, R15(h)). -/
def blockTotal (bs : List Block) : Nat := (bs.map fun b => b.cnt.toNat).sum

/-- `ts_en ? TS_BYTES : 0` (R45). -/
def tsLen (tsEn : Bool) : Nat := if tsEn then tsBytes else 0

/-- The mode of a channel, derived from its descriptor (R44). -/
def Channel.mode (d : Channel) : EngineMode := if d.intEn then .interrupt else .polling

/-- A channel matches a mode when it is valid and has that mode (R44). -/
def Channel.matchesMode (m : EngineMode) (d : Channel) : Bool := d.valid && decide (d.mode = m)

/-- `period_us(c)` (R211). -/
def Channel.periodUs (d : Channel) : Nat :=
  match d.unit with
  | .milliseconds => d.period.toNat * 1000
  | .microseconds => d.period.toNat

/-- The channels that match a mode, ascending (R212's set M). -/
def State.matching (s : State) (m : EngineMode) : List Channel := s.ch.filter (Channel.matchesMode m)

/-- `BusInUse(ref)` (R164): the engine is armed and a channel matching its mode is on the bus. -/
def State.busInUse (s : State) (r : BusRef) : Bool :=
  s.eng.armed && (s.matching s.eng.amode).any fun d => decide (d.bus = r)

/-- The millisecond value `MS` (R33). -/
def State.ms (s : State) : BitVec 32 := BitVec.ofNat 32 (s.us.toNat / 1000)

/-- The state of the engine, derived (R43). -/
def State.engineState (s : State) : EngineState :=
  if s.eng.armed then .armed else if s.ch.any Channel.valid then .configured else .unconfigured

/-- The state of a channel, derived (R43). -/
def State.channelState (s : State) (c : Nat) : EngineState :=
  if (s.channel c).valid = false then .unconfigured
  else if s.eng.armed && (s.channel c).matchesMode s.eng.amode then .armed
  else .configured

end Sys2Proof.Machine
end

