-- ==== Sys2Proof/Machine/Bus.lean ====
section
/-! DEFINITION. The bus configuration commands (40_bus_commands.md) and the bus read primitive (20_memory.md R91). -/

namespace Sys2Proof.Machine

/-- Step 4 of BUS_CFG (R161): the entry's speed and mode, an SPI word width of 8, the configured flag. -/
def State.configureBus (r : BusRef) (speed : Byte) (bmode : BitVec 4) (s : State) : State :=
  match r.kind with
  | .i2c => s.setI2cBus r.idx.toNat { configured := true, speed := speed, mode := bmode }
  | .spi => s.setSpiBus r.idx.toNat { configured := true, speed := speed, mode := bmode, width16 := false }

/-- BUS_CFG (R161; against D14, log 9). -/
def execBusCfg (bus : BusRef) (speed : Byte) (bmode : BitVec 4) (s : State) : Result :=
  if busValid s.cfg bus = false then reject .busCfg (invalidBus bus.kind) s
  else if s.busConfigured bus then reject .busCfg (alreadyConfigured bus.kind) s
  else if bus.kind = .i2c ∧ 2 < bmode.toNat then reject .busCfg .eI2cConfigFailed s
  else succeed .busCfg (s.configureBus bus speed bmode)

/-- BUS_CFGW (R162). -/
def execBusCfgw (bus : BusRef) (speed : Byte) (w16 : Bool) (bmode : BitVec 4) (s : State) : Result :=
  if bus.kind = .i2c ∨ s.cfg.nSpi ≤ bus.idx.toNat then reject .busCfgw .eSpiInvalidBus s
  else if (s.spiBus bus.idx.toNat).configured then reject .busCfgw .eSpiAlreadyConfigured s
  else if w16 = true ∧ s.cfg.spi16Ok.getD bus.idx.toNat false = false then reject .busCfgw .eSpiNotConfigured s
  else
    succeed .busCfgw
      (s.setSpiBus bus.idx.toNat { configured := true, speed := speed, mode := bmode, width16 := w16 })

/-- Step 4 of BUS_DECFG (R163): the configured flag is cleared, and the other fields become free values (U2, log 5). -/
def State.deconfigureBus (r : BusRef) (s : State) : State :=
  match r.kind with
  | .i2c =>
    (s.setI2cBus r.idx.toNat
      { configured := false, speed := (Config.staleBus s.free).1, mode := (Config.staleBus s.free).2.1 }).drawFree
  | .spi =>
    (s.setSpiBus r.idx.toNat
      { configured := false, speed := (Config.staleBus s.free).1, mode := (Config.staleBus s.free).2.1,
        width16 := (Config.staleBus s.free).2.2 }).drawFree

/-- BUS_DECFG (R163). -/
def execBusDecfg (bus : BusRef) (s : State) : Result :=
  if busValid s.cfg bus = false then reject .busDecfg (invalidBus bus.kind) s
  else if s.busConfigured bus = false then reject .busDecfg (notConfigured bus.kind) s
  else if s.busInUse bus then reject .busDecfg .eFailure s
  else succeed .busDecfg (s.deconfigureBus bus)

/-- What a `BusRead` asks of the bus target, with the bus's current configuration (R91, U19). -/
def State.busRequest (s : State) (bus : BusRef) (dev reg : Byte) (n : Nat) : BusRequest :=
  match bus.kind with
  | .i2c =>
    { bus := bus, dev := dev, reg := reg, n := n, speed := (s.i2cBus bus.idx.toNat).speed,
      mode := (s.i2cBus bus.idx.toNat).mode, width16 := false }
  | .spi =>
    { bus := bus, dev := dev, reg := reg, n := n, speed := (s.spiBus bus.idx.toNat).speed,
      mode := (s.spiBus bus.idx.toNat).mode, width16 := (s.spiBus bus.idx.toNat).width16 }

/-- The free answer of the bus target: exactly n bytes, or Fail (R91, U3, log 7). -/
def freeBusAnswer (k : Nat) (q : BusRequest) : BusAnswer :=
  match Config.busOracle k q with
  | some f => .ok ((List.range q.n).map f)
  | none => .fail

/-- The bus target's answer to a request and the state after it: the next scripted answer when it is Fail or has
exactly n bytes, else the free answer (R91, log 7). -/
def State.busAnswer (q : BusRequest) (s : State) : BusAnswer × State :=
  match s.busScript with
  | .fail :: rest => (.fail, { s with busScript := rest })
  | .ok bytes :: rest =>
    if bytes.length = q.n then (.ok bytes, { s with busScript := rest })
    else (freeBusAnswer s.free q, { s with busScript := rest, free := s.free + 1 })
  | [] => (freeBusAnswer s.free q, { s with free := s.free + 1 })

/-- `BusRead(bus, dev, reg, n)` (R91): the bus target's answer, and one BUSLOG entry. -/
def busRead (bus : BusRef) (dev reg : Byte) (n : Nat) (s : State) : BusAnswer × State :=
  let a := s.busAnswer (s.busRequest bus dev reg n)
  (a.1, { a.2 with busLog := a.2.busLog ++ [{ bus := bus, dev := dev, reg := reg, n := n, result := a.1 }] })

end Sys2Proof.Machine
end

