-- ==== Sys2Proof/Machine/Interrupt.lean ====
section
/-! DEFINITION. The pin interrupt commands (42_interrupt_commands.md) and the pins themselves (60_exceptions.md R286). -/

namespace Sys2Proof.Machine

/-- A binding that is removed: `policy` and `target` become free values (R201, U2, log 5). -/
def Binding.clear (k p : Nat) : Binding :=
  { valid := false, policy := (Config.staleBinding k p).1, target := (Config.staleBinding k p).2 }

/-- INT_ATTACH (R200). -/
def execIntAttach (pin : Byte) (policy : Policy) (tag : Byte) (s : State) : Result :=
  if s.cfg.nPins ≤ pin.toNat then reject .intAttach .eFailure s
  else if policy = .reserved then reject .intAttach .eFailure s
  else
    succeed .intAttach
      ((s.setBinding pin.toNat { valid := true, policy := policy, target := .ext tag }).purge (.pin pin.toNat))

/-- `BIND[p].valid <- 0` (R201): with no binding nothing changes. -/
def State.unbind (p : Nat) (s : State) : State :=
  if (s.binding p).valid then (s.setBinding p (Binding.clear s.free p)).drawFree else s

/-- INT_DETACH (R201). -/
def execIntDetach (pin : Byte) (s : State) : Result :=
  if s.cfg.nPins ≤ pin.toNat then reject .intDetach .eFailure s
  else succeed .intDetach ((s.unbind pin.toNat).purge (.pin pin.toNat))

/-- `PinChange(p, v)` for p < N_PINS (R286). A pin that does not exist takes no step (U18). -/
def pinChange (p : Nat) (v : Bool) (s : State) : State :=
  if s.cfg.nPins ≤ p then s
  else if v = s.pinLevel p then s
  else if (s.binding p).valid = true ∧ qualifies (s.binding p).policy v = true then
    (s.setPinLevel p v).latch (.pin p) v
  else s.setPinLevel p v

end Sys2Proof.Machine
end

