-- ==== Sys2Proof/Machine/Flags.lean ====
section
/-! DEFINITION. Every flag computation: the FLAGS byte of a record (20_memory.md R82, 44_tick_sequencer.md R255) and the
flags word of a STR_READ response (30_encoding.md R136). The one-bit flags of 10_state.md R54 are fields of `State`. -/

namespace Sys2Proof.Machine

/-- The FLAGS byte of a new record: bit 0 ERR, bit 1 TS, the others 0 (R82, R255). -/
def recordFlags (tsEn err : Bool) : Byte := (if err then 1 else 0) ||| (if tsEn then 2 else 0)

/-- `ERR`, bit 0 of FLAGS (R82). -/
def flagErr (f : Byte) : Bool := f.getLsbD 0

/-- `TS`, bit 1 of FLAGS (R82). -/
def flagTs (f : Byte) : Bool := f.getLsbD 1

/-- `CONSUMED`, bit 7 of FLAGS (R82). -/
def flagConsumed (f : Byte) : Bool := f.getLsbD 7

/-- FLAGS with CONSUMED set (R88). -/
def markConsumed (f : Byte) : Byte := f ||| 0x80

/-- The flags word of a STR_READ response: bit 0 OVF, bit 1 TRIG_OVERRUN, bits 31:2 zero (R136, R217). -/
def readFlags (ovf trigOverrun : Bool) : Word := place (BitVec.ofBool ovf) 0 ||| place (BitVec.ofBool trigOverrun) 1

end Sys2Proof.Machine
end

