-- ==== Sys2Proof/Machine/Ring.lean ====
section
/-! DEFINITION. The response ring (20_memory.md): byte access modulo BUF_CAP (R83, R84), Push with its evictions (R85,
R86), Reclaim (R87) and PopOne (R88). `cap` is BUF_CAP. -/

namespace Sys2Proof.Machine

/-- One byte of the ring space: `BUF[off]` (R84). -/
def ringByte (cap : Nat) (m : Memory) (off : Nat) : Except Fault Byte :=
  if off < cap then
    match m.read off with
    | some b => .ok b
    | none => .error .ringUnwritten
  else .error .ringOffset

/-- `RingRead(off, n)` (R84). -/
def ringRead (cap : Nat) (m : Memory) : Nat → Nat → Except Fault (List Byte)
  | _, 0 => .ok []
  | off, n + 1 =>
    match ringByte cap m (off % cap) with
    | .error f => .error f
    | .ok b =>
      match ringRead cap m (off + 1) n with
      | .error f => .error f
      | .ok bs => .ok (b :: bs)

/-- `RingWrite(off, bytes)` (R84). -/
def ringWrite (cap : Nat) : Memory → Nat → List Byte → Memory
  | m, _, [] => m
  | m, off, b :: bs => ringWrite cap (m.write (off % cap) b) (off + 1) bs

/-- The FLAGS byte of the record at an offset (R82). -/
def recordFlagsAt (cap : Nat) (m : Memory) (off : Nat) : Except Fault Byte := ringByte cap m ((off + 1) % cap)

/-- The size `HDR_BYTES + LEN` of the record at an offset (R82, R86). -/
def recordSizeAt (cap : Nat) (m : Memory) (off : Nat) : Except Fault Nat :=
  match ringByte cap m ((off + 2) % cap) with
  | .error f => .error f
  | .ok len => .ok (hdrBytes + len.toNat)

/-- TAG, FLAGS and size of the record at an offset (R82, R88). -/
def recordHeaderAt (cap : Nat) (m : Memory) (off : Nat) : Except Fault (Byte × Byte × Nat) :=
  match ringByte cap m (off % cap) with
  | .error f => .error f
  | .ok tag =>
    match recordFlagsAt cap m off with
    | .error f => .error f
    | .ok flags =>
      match recordSizeAt cap m off with
      | .error f => .error f
      | .ok size => .ok (tag, flags, size)

/-- The record of the given size at `head` leaves the ring (R86, R87). -/
def Ring.dropHead (cap size : Nat) (r : Ring) : Ring :=
  { r with head := (r.head + size) % cap, used := r.used - size }

/-- The loop of `Reclaim()` (R87), with fuel; every turn lowers `used`, so `used` is fuel enough. -/
def reclaimLoop (cap : Nat) : Nat → Ring → Except Fault Ring
  | 0, r => .ok r
  | fuel + 1, r =>
    if r.used = 0 then .ok r
    else
      match recordFlagsAt cap r.buf r.head with
      | .error f => .error f
      | .ok flags =>
        if flagConsumed flags then
          match recordSizeAt cap r.buf r.head with
          | .error f => .error f
          | .ok size =>
            if r.used < size then .error .ringMalformed
            else reclaimLoop cap fuel (r.dropHead cap size)
        else .ok r

/-- `Reclaim()` (R87). -/
def reclaim (cap : Nat) (r : Ring) : Except Fault Ring := reclaimLoop cap r.used r

/-- `EvictOldest()` (R86). -/
def evictOldest (cap : Nat) (r : Ring) : Except Fault Ring :=
  if r.used = 0 then .error .ringMalformed
  else
    match recordSizeAt cap r.buf r.head with
    | .error f => .error f
    | .ok size =>
      if r.used < size then .error .ringMalformed
      else reclaim cap { r.dropHead cap size with ovf := true }

/-- The loop of `Push` (R85): evict until `n` bytes are free, with fuel; every turn lowers `used`, so `used` is fuel
enough. -/
def evictLoop (cap n : Nat) : Nat → Ring → Except Fault Ring
  | 0, r => if cap - r.used < n then .error .ringMalformed else .ok r
  | fuel + 1, r =>
    if cap - r.used < n then
      match evictOldest cap r with
      | .error f => .error f
      | .ok r' => evictLoop cap n fuel r'
    else .ok r

/-- The record's bytes are written at `tail` (the last three lines of R85). -/
def Ring.append (cap : Nat) (rec : List Byte) (r : Ring) : Ring :=
  { r with
    buf := ringWrite cap r.buf r.tail rec
    tail := (r.tail + rec.length) % cap
    used := r.used + rec.length }

/-- `Push(rec)` (R85). -/
def push (cap : Nat) (rec : List Byte) (r : Ring) : Except Fault Ring :=
  match evictLoop cap rec.length r.used r with
  | .error f => .error f
  | .ok r' => .ok (r'.append cap rec)

/-- The filter of a read: 0xFF is ALL, any other value a channel id (R52, R88, R135). -/
def filterMatches (filter tag : Byte) : Bool := decide (filter = 0xFF) || decide (tag = filter)

/-- The record found by `PopOne` is marked CONSUMED and the space at `head` reclaimed (R88). -/
def consumeAt (cap : Nat) (off : Nat) (flags : Byte) (r : Ring) : Except Fault Ring :=
  reclaim cap { r with buf := r.buf.write ((off + 1) % cap) (markConsumed flags) }

/-- The scan of `PopOne(filter)` (R88) from an offset with `rem` bytes left, with fuel; every turn lowers `rem`, so
`rem` is fuel enough. -/
def popScan (cap : Nat) (filter : Byte) : Nat → Nat → Nat → Ring → Except Fault (Option (List Byte) × Ring)
  | 0, _, _, r => .ok (none, r)
  | fuel + 1, off, rem, r =>
    if rem = 0 then .ok (none, r)
    else
      match recordHeaderAt cap r.buf off with
      | .error f => .error f
      | .ok (tag, flags, size) =>
        if rem < size then .error .ringMalformed
        else if !flagConsumed flags && filterMatches filter tag then
          match ringRead cap r.buf off size with
          | .error f => .error f
          | .ok rec =>
            match consumeAt cap off flags r with
            | .error f => .error f
            | .ok r' => .ok (some rec, r')
        else popScan cap filter fuel ((off + size) % cap) (rem - size) r

/-- `PopOne(filter)` (R88): the oldest unread record that matches, if there is one, and the ring after it. -/
def popOne (cap : Nat) (filter : Byte) (r : Ring) : Except Fault (Option (List Byte) × Ring) :=
  popScan cap filter r.used r.head r.used r

end Sys2Proof.Machine
end

