-- ==== Sys2Proof/Machine/Timer.lean ====
section
/-! DEFINITION. The timer and counter commands (41_timer_commands.md) and the free-running time base UsTick
(60_exceptions.md R285). -/

namespace Sys2Proof.Machine

/-- A timer that is stopped: `target` is kept; `timeout`, `cnt`, `oneshot` become free values (R182, U2, log 5). -/
def Timer.halt (k i : Nat) (t : Timer) : Timer :=
  { t with
    state := .stopped
    timeout := (Config.staleTimer k i).1
    cnt := (Config.staleTimer k i).2.1
    oneshot := (Config.staleTimer k i).2.2 }

/-- `TMR[i].state <- STOPPED` from RUNNING, READY or STOPPED (R182, R216); a timer already STOPPED is left as it is. -/
def State.stopTimer (i : Nat) (s : State) : State :=
  if (s.timer i).state = .stopped then s else (s.setTimer i ((s.timer i).halt s.free i)).drawFree

/-- TMR_CFG (R180). -/
def execTmrCfg (inst tag : Byte) (s : State) : Result :=
  if s.cfg.nTimers ≤ inst.toNat then reject .tmrCfg .eTimerInvalidInstance s
  else if (s.timer inst.toNat).state = .running then reject .tmrCfg .eTimerInvalidInstance s
  else
    succeed .tmrCfg
      ((s.setTimer inst.toNat { s.timer inst.toNat with target := .ext tag, state := .ready }).purge
        (.timer inst.toNat))

/-- TMR_START (R181). -/
def execTmrStart (inst : Byte) (oneshot : Bool) (timeout : BitVec 32) (s : State) : Result :=
  if s.cfg.nTimers ≤ inst.toNat then reject .tmrStart .eTimerInvalidInstance s
  else if (s.timer inst.toNat).state = .running then reject .tmrStart .eTimerInvalidInstance s
  else if (s.timer inst.toNat).state = .stopped then reject .tmrStart .eTimerInvalidInstance s
  else if timeout = 0 then reject .tmrStart .eTimerInitFailed s
  else
    succeed .tmrStart
      (s.setTimer inst.toNat
        { s.timer inst.toNat with timeout := timeout, cnt := 0, oneshot := oneshot, state := .running })

/-- TMR_STOP (R182). -/
def execTmrStop (inst : Byte) (s : State) : Result :=
  if s.cfg.nTimers ≤ inst.toNat then reject .tmrStop .eTimerInvalidInstance s
  else succeed .tmrStop ((s.stopTimer inst.toNat).purge (.timer inst.toNat))

/-- TMR_RESET (R183). -/
def execTmrReset (inst : Byte) (s : State) : Result :=
  if s.cfg.nTimers ≤ inst.toNat then reject .tmrReset .eTimerInvalidInstance s
  else if (s.timer inst.toNat).state = .running then
    succeed .tmrReset (s.setTimer inst.toNat { s.timer inst.toNat with cnt := 0 })
  else succeed .tmrReset s

/-- GET_MS (R184). -/
def execGetMs (s : State) : Result := .next (s.respond Opcode.getMs.code .success 0 [s.ms])

/-- GET_US (R185): bits 31:0 of US, then bits 63:32. -/
def execGetUs (s : State) : Result :=
  .next (s.respond Opcode.getUs.code .success 0 [s.us.extractLsb' 0 32, s.us.extractLsb' 32 32])

/-- A RUNNING timer fires in the UsTick that brings `cnt` to `timeout` (R285). -/
def Timer.fires (t : Timer) : Bool := decide (t.state = .running ∧ t.cnt + 1 = t.timeout)

/-- One timer in a UsTick (R285): a RUNNING one counts; on reaching `timeout` a one-shot one stops and a periodic one
counts from 0 again. -/
def Timer.tick (k i : Nat) (t : Timer) : Timer :=
  if t.state = .running then
    if t.cnt + 1 = t.timeout then
      if t.oneshot then t.halt k i else { t with cnt := 0 }
    else { t with cnt := t.cnt + 1 }
  else t

/-- The timers that fire in a UsTick, in ascending instance order (R285, R290). -/
def State.firing (s : State) : List Nat := (List.range s.cfg.nTimers).filter fun i => (s.timer i).fires

/-- `UsTick` (R285): US is incremented, every timer ticks, and the fires are latched in ascending instance order with
the new US. One timer's tick neither reads nor writes another timer or TRIGQ, so all tick before the latches (DEDUCED, log 13). -/
def usTick (s : State) : State :=
  let ticked := { s with us := s.us + 1, tmr := s.tmr.mapIdx (fun i t => t.tick s.free i), free := s.free + 1 }
  s.firing.foldl (fun s' i => s'.latch (.timer i) false) ticked

end Sys2Proof.Machine
end

