-- ==== Sys2Proof/Machine/Streaming.lean ====
section
/-! DEFINITION. The streaming commands (43_streaming_commands.md): STR_CFG, STR_START, STR_STOP with the stop procedure,
and STR_READ with its steps RdBegin, RdPop and RdEnd. -/

namespace Sys2Proof.Machine

/-- Check 5 of STR_CFG (R210): NB is 0 or above MAX_BLOCKS, or some CNT_k is 0. -/
def blockListBad (p : Params) (bs : List Block) : Bool :=
  bs.isEmpty || decide (p.maxBlocks < bs.length) || bs.any fun b => decide (b.cnt = 0)

/-- Check 9 of STR_CFG (R210): a pin binding on a pin that does not exist or with the reserved policy. -/
def pinOperandBad (p : Params) (intEn : Bool) (intPin : Byte) (intPol : Policy) : Bool :=
  intEn && (decide (p.nPins ≤ intPin.toNat) || decide (intPol = .reserved))

/-- STR_CFG (R210). The checks are those of the rule, in its order; step 10 writes the whole descriptor, `active` and
`produced`, and leaves `div` and `divcnt`, which STR_START writes before they are read (DEDUCED, log 12). -/
def execStrCfg (chan : BitVec 4) (bus : BusRef) (dev : Byte) (period : BitVec 16) (unit : UnitCode) (tsEn intEn : Bool)
    (intPol : Policy) (intPin : Byte) (blocks : List Block) (s : State) : Result :=
  if s.eng.armed then reject .strCfg .eFailure s
  else if s.cfg.nChannels ≤ chan.toNat then reject .strCfg .eFailure s
  else if busValid s.cfg bus = false then reject .strCfg (invalidBus bus.kind) s
  else if s.busConfigured bus = false then reject .strCfg (configFailed bus.kind) s
  else if blockListBad s.cfg blocks then reject .strCfg (configFailed bus.kind) s
  else if s.cfg.recCap < blockTotal blocks + tsLen tsEn then reject .strCfg (configFailed bus.kind) s
  else if unitRecognised unit = false then reject .strCfg (configFailed bus.kind) s
  else if intEn = false ∧ period = 0 then reject .strCfg (configFailed bus.kind) s
  else if pinOperandBad s.cfg intEn intPin intPol then reject .strCfg (configFailed bus.kind) s
  else
    succeed .strCfg
      (s.setChannel chan.toNat
        { s.channel chan.toNat with
          valid := true, bus := bus, dev := dev, blocks := blocks, period := period, unit := timeUnit unit,
          intEn := intEn, intPin := intPin, intPol := intPol, tsEn := tsEn, active := false, produced := 0 })

/-- The base period of a polling start: the greatest common divisor of the periods (R212, R213). -/
def basePeriod (m : List Channel) : Nat := m.foldl (fun g d => Nat.gcd g d.periodUs) 0

/-- `MergedPolicy(p)` (R214): the common policy of the channels on the pin if all agree, else ON_CHANGE. -/
def mergedPolicy (m : List Channel) (p : Nat) : Policy :=
  match m.filter (fun d => decide (d.intPin.toNat = p)) with
  | [] => .onChange
  | d :: ds => if ds.all (fun e => decide (e.intPol = d.intPol)) then d.intPol else .onChange

/-- The pins of a set of channels (R212). -/
def pinsOf (m : List Channel) : List Nat := m.map fun d => d.intPin.toNat

/-- Step 5 of STR_START on the channels, POLLING (R212): dividers of the matching channels, `active`, `produced`. -/
def Channel.startPolling (base : Nat) (d : Channel) : Channel :=
  if d.matchesMode .polling then
    { d with div := BitVec.ofNat 32 (d.periodUs / base), divcnt := 0, active := true, produced := 0 }
  else d

/-- Step 5 of STR_START on the channels, INTERRUPT (R212): `active`, `produced` of the matching channels. -/
def Channel.startInterrupt (d : Channel) : Channel :=
  if d.matchesMode .interrupt then { d with active := true, produced := 0 } else d

/-- Step 5 of STR_START, POLLING (R212): the channels, STREAM_TIMER armed at the base period, its triggers purged,
the engine armed. -/
def State.startPolling (cap : BitVec 16) (s : State) : State :=
  { s with
    ch := s.ch.map (Channel.startPolling (basePeriod (s.matching .polling)))
    tmr := s.tmr.set s.cfg.streamTimer
      { state := .running, target := .stream, timeout := BitVec.ofNat 32 (basePeriod (s.matching .polling)), cnt := 0,
        oneshot := false }
    trigq := purgeSources [.timer s.cfg.streamTimer] s.trigq
    eng := { armed := true, amode := .polling, cap := cap } }

/-- Step 5 of STR_START, INTERRUPT (R212): every pin of the matching channels bound to STREAM with its merged policy
and its triggers purged, the channels, the engine armed. -/
def State.startInterrupt (cap : BitVec 16) (s : State) : State :=
  { s with
    ch := s.ch.map Channel.startInterrupt
    bind := s.bind.mapIdx fun p b =>
      if (pinsOf (s.matching .interrupt)).contains p then
        { valid := true, policy := mergedPolicy (s.matching .interrupt) p, target := .stream }
      else b
    trigq := purgeSources ((pinsOf (s.matching .interrupt)).map .pin) s.trigq
    eng := { armed := true, amode := .interrupt, cap := cap } }

/-- Check 3 of STR_START (R212): the first matching channel, ascending, whose bus is not configured. -/
def State.firstUnconfigured (s : State) (m : EngineMode) : Option Channel :=
  (s.matching m).find? fun d => !s.busConfigured d.bus

/-- STR_START (R212). -/
def execStrStart (mode : EngineMode) (sampleCount : BitVec 16) (s : State) : Result :=
  if s.eng.armed then reject .strStartStop .eFailure s
  else if (s.matching mode).isEmpty then reject .strStartStop .eFailure s
  else
    match s.firstUnconfigured mode with
    | some d => reject .strStartStop (notConfigured d.bus.kind) s
    | none =>
      match mode with
      | .polling =>
        if (s.timer s.cfg.streamTimer).state = .running then reject .strStartStop .eTimerInvalidInstance s
        else succeed .strStartStop (s.startPolling sampleCount)
      | .interrupt => succeed .strStartStop (s.startInterrupt sampleCount)

/-- `StopProcedure()`, its first part (R216): the armed trigger is stopped and its triggers purged. The removed
bindings' other fields become free values (U2, log 5). -/
def State.disarmTrigger (s : State) : State :=
  match s.eng.amode with
  | .polling => (s.stopTimer s.cfg.streamTimer).purge (.timer s.cfg.streamTimer)
  | .interrupt =>
    { s with
      bind := s.bind.mapIdx fun p b =>
        if (pinsOf (s.matching .interrupt)).contains p ∧ b.valid = true then Binding.clear s.free p else b
      trigq := purgeSources ((pinsOf (s.matching .interrupt)).map .pin) s.trigq
      free := s.free + 1 }

/-- `StopProcedure()` (R216): the armed trigger is stopped, every channel becomes inactive, the engine is disarmed. -/
def stopProcedure (s : State) : State :=
  { s.disarmTrigger with
    ch := s.ch.map fun d => { d with active := false }
    eng := { s.eng with armed := false } }

/-- STR_STOP (R215); MODE and SAMPLE_COUNT are ignored. -/
def execStrStop (_mode : EngineMode) (_sampleCount : BitVec 16) (s : State) : Result :=
  if s.eng.armed then succeed .strStartStop (stopProcedure s) else succeed .strStartStop s

/-- STR_READ (R217): its first step, RdBegin. RdPop and RdEnd follow as foreground steps of their own (log 14). -/
def execStrRead (chf : Byte) (maxRecords : BitVec 16) (s : State) : Result :=
  if chf ≠ 0xFF ∧ s.cfg.nChannels ≤ chf.toNat then reject .strRead .eFailure s
  else .next (s.setRead { busy := true, filter := chf, left := maxRecords, count := 0, out := [] })

/-- RD after one `RdPop` (R217): no record found ends the reading, a record is appended and counted. -/
def ReadState.popped (rec : Option (List Byte)) (rd : ReadState) : ReadState :=
  match rec with
  | none => { rd with left := 0 }
  | some r => { rd with out := rd.out ++ r, count := rd.count + 1, left := rd.left - 1 }

/-- `RdPop` (R217), one step. -/
def rdPop (s : State) : Result :=
  match popOne s.cfg.bufCap s.rd.filter s.ring with
  | .error f => .fault f
  | .ok (rec, r) => .next ((s.setRing r).setRead (s.rd.popped rec))

/-- The payload of a STR_READ response (R136, R217): flags, NBYTES, the packed record bytes. -/
def State.readPayload (s : State) : List Word :=
  readFlags s.ring.ovf s.trigOverrun :: BitVec.ofNat 32 s.rd.out.length :: packWords s.rd.out

/-- `RdEnd` (R217, R218), one step: the response, OVF cleared, the read over. -/
def rdEnd (s : State) : Result :=
  .next
    (((s.setRing { s.ring with ovf := false }).setRead { s.rd with busy := false }).respond Opcode.strRead.code .success
      s.rd.count s.readPayload)

end Sys2Proof.Machine
end

