-- ==== Sys2Proof/Machine/Dispatch.lean ====
section
/-! DEFINITION. What each command does: one arm per constructor of `Instr`. -/

namespace Sys2Proof.Machine

def exec (i : Instr) (s : State) : Host.Outcome State Fault Refusal :=
  match i with
  | .busCfg bus speed bmode => Sys2Proof.Machine.execBusCfg bus speed bmode s
  | .busCfgw bus speed w16 bmode => Sys2Proof.Machine.execBusCfgw bus speed w16 bmode s
  | .busDecfg bus => Sys2Proof.Machine.execBusDecfg bus s
  | .tmrCfg inst tag => Sys2Proof.Machine.execTmrCfg inst tag s
  | .tmrStart inst oneshot timeout => Sys2Proof.Machine.execTmrStart inst oneshot timeout s
  | .tmrStop inst => Sys2Proof.Machine.execTmrStop inst s
  | .tmrReset inst => Sys2Proof.Machine.execTmrReset inst s
  | .intAttach pin policy tag => Sys2Proof.Machine.execIntAttach pin policy tag s
  | .intDetach pin => Sys2Proof.Machine.execIntDetach pin s
  | .strCfg chan bus dev period unit tsEn intEn intPol intPin blocks => Sys2Proof.Machine.execStrCfg chan bus dev period unit tsEn intEn intPol intPin blocks s
  | .strStart mode sampleCount => Sys2Proof.Machine.execStrStart mode sampleCount s
  | .strStop mode sampleCount => Sys2Proof.Machine.execStrStop mode sampleCount s
  | .strRead chf maxRecords => Sys2Proof.Machine.execStrRead chf maxRecords s
  | .getMs => Sys2Proof.Machine.execGetMs s
  | .getUs => Sys2Proof.Machine.execGetUs s

end Sys2Proof.Machine
end

