-- ==== Sys2Proof/Machine/Sequencer.lean ====
section
/-! DEFINITION. The tick sequencer (44_tick_sequencer.md), which a Dispatch runs for a trigger of the streaming engine,
and the Dispatch step itself (60_exceptions.md R289). -/

namespace Sys2Proof.Machine

/-- A polling channel that a fire of the cadence timer counts for (R251). -/
def Channel.counting (d : Channel) : Bool := d.valid && !d.intEn && d.active

/-- A polling channel that a fire makes due: the fire completes its divider (R251). -/
def Channel.dueOnFire (d : Channel) : Bool := d.counting && decide (d.divcnt + 1 = d.div)

/-- The divider of a polling channel after a fire (R251). -/
def Channel.countFire (d : Channel) : Channel :=
  if d.counting then { d with divcnt := if d.divcnt + 1 = d.div then 0 else d.divcnt + 1 } else d

/-- An interrupt channel that an edge of pin p makes due (R252). -/
def Channel.dueOnEdge (p : Nat) (val : Bool) (d : Channel) : Bool :=
  d.valid && d.intEn && d.active && decide (d.intPin.toNat = p) && qualifies d.intPol val

/-- The channel ids, ascending, whose channel satisfies a test (R251, R252). -/
def State.channelsWith (s : State) (f : Channel → Bool) : List Nat :=
  (List.range s.cfg.nChannels).filter fun c => f (s.channel c)

/-- `DueSet(e)` (R251, R252) with the dividers after it; no DueSet is given for a source that is not the armed
mode's. -/
def dueSet (e : Trigger) (s : State) : Except Fault (List Nat × State) :=
  match s.eng.amode, e.src with
  | .polling, .timer i =>
    if i = s.cfg.streamTimer then
      .ok (s.channelsWith Channel.dueOnFire, { s with ch := s.ch.map Channel.countFire })
    else .error .noDueSet
  | .interrupt, .pin p => .ok (s.channelsWith (Channel.dueOnEdge p e.val), s)
  | .polling, .pin _ => .error .noDueSet
  | .interrupt, .timer _ => .error .noDueSet

/-- What the fetch part of `Sample` gathers: the data bytes, the error marker, and the state after the reads (R253). -/
structure Fetched where
  data : List Byte
  err : Bool
  state : State

/-- The fetch part of `Sample(c, ts)` (R253, R254) over a block list: one BusRead per block in block order, and after
the first Fail no more, the bytes of the failed and the skipped blocks being 0 (against D39, log 10). -/
def fetchBlocks (bus : BusRef) (dev : Byte) : List Block → Bool → State → Fetched
  | [], err, s => { data := [], err := err, state := s }
  | b :: bs, true, s =>
    let rest := fetchBlocks bus dev bs true s
    { rest with data := List.replicate b.cnt.toNat 0 ++ rest.data }
  | b :: bs, false, s =>
    match busRead bus dev b.reg b.cnt.toNat s with
    | (.ok bytes, s') =>
      let rest := fetchBlocks bus dev bs false s'
      { rest with data := bytes ++ rest.data }
    | (.fail, s') =>
      let rest := fetchBlocks bus dev bs true s'
      { rest with data := List.replicate b.cnt.toNat 0 ++ rest.data }

/-- The payload of a record: the data, then the timestamp when the channel wants it (R82, R255). -/
def recordPayload (tsEn : Bool) (data : List Byte) (ts : BitVec 64) : List Byte :=
  data ++ if tsEn then le64 ts else []

/-- The format part of `Sample(c, ts)` (R255). -/
def formatRecord (c : Nat) (tsEn err : Bool) (data : List Byte) (ts : BitVec 64) : List Byte :=
  BitVec.ofNat 8 c :: recordFlags tsEn err :: BitVec.ofNat 8 (recordPayload tsEn data ts).length ::
    recordPayload tsEn data ts

/-- `Sample(c, ts)` (R253, R255): the record and the state after its reads. -/
def sample (c : Nat) (ts : BitVec 64) (s : State) : List Byte × State :=
  let f := fetchBlocks (s.channel c).bus (s.channel c).dev (s.channel c).blocks false s
  (formatRecord c (s.channel c).tsEn f.err f.data ts, f.state)

/-- `Count(c)` on the channel (R256). -/
def Channel.counted (cap : BitVec 16) (d : Channel) : Channel :=
  if cap ≠ 0 ∧ d.produced + 1 = cap then { d with produced := d.produced + 1, active := false }
  else { d with produced := d.produced + 1 }

/-- `Count(c)` (R256). -/
def State.count (c : Nat) (s : State) : State := s.setChannel c ((s.channel c).counted s.eng.cap)

/-- One turn of the loop of `TickSequence` (R250): Sample, Push, Count. -/
def serveChannel (ts : BitVec 64) (c : Nat) (s : State) : Except Fault State :=
  match push s.cfg.bufCap (sample c ts s).1 s.ring with
  | .error f => .error f
  | .ok r => .ok (((sample c ts s).2.setRing r).count c)

/-- The loop of `TickSequence` over the due channels (R250). -/
def serveChannels (ts : BitVec 64) : List Nat → State → Except Fault State
  | [], s => .ok s
  | c :: cs, s =>
    match serveChannel ts c s with
    | .error f => .error f
    | .ok s' => serveChannels ts cs s'

/-- `AutoStop()` (R257). -/
def autoStop (s : State) : State :=
  if s.eng.cap ≠ 0 ∧ (s.matching s.eng.amode).any Channel.active = false then stopProcedure s else s

/-- `TickSequence(e)` (R250). -/
def tickSequence (e : Trigger) (s : State) : Except Fault State :=
  match dueSet e s with
  | .error f => .error f
  | .ok (due, s1) =>
    match serveChannels e.ts due s1 with
    | .error f => .error f
    | .ok s2 => .ok (autoStop s2)

/-- `TickSequence(e)` as the whole of a step. -/
def runTick (e : Trigger) (s : State) : Result :=
  match tickSequence e s with
  | .error f => .fault f
  | .ok s' => .next s'

/-- The handler of a trigger, looked up in its source's current binding (R289). -/
def runHandler (e : Trigger) (s : State) : Result :=
  match e.src with
  | .timer i =>
    match (s.timer i).target with
    | .ext tag => .next (s.emit (.timerCb tag i))
    | .stream => runTick e s
    | .none => .next s
  | .pin p =>
    if (s.binding p).valid = false then .next s
    else
      match (s.binding p).target with
      | .ext tag => .next (s.emit (.pinCb tag p e.val e.ts))
      | .stream => runTick e s

/-- `Dispatch` (R289): the oldest trigger leaves TRIGQ and its handler runs. With TRIGQ empty the step is not enabled and
nothing changes (log 2). -/
def dispatchStep (s : State) : Result :=
  match s.trigq with
  | [] => .next s
  | e :: rest => runHandler e { s with trigq := rest }

end Sys2Proof.Machine
end

