-- ==== Sys2Proof/Machine/Agents.lean ====
section
/-! DEFINITION. The agents' steps (00_scope.md R8, R9): the foreground with its command port, the reset input, and the
choice of the agent that steps next. -/

namespace Sys2Proof.Machine

/-- The foreground runs a whole frame: the command's meaning, or for an illegal frame the rejection with
E_NOT_SUPPORTED that echoes its `OPC` (R138, R139). -/
def runFrame (frame : List Word) (s : State) : Result :=
  match decode frame with
  | .ok i => exec i s
  | .error .noHeader => .next s
  | .error (.unknownOpcode opc) => .next (s.respond opc .eNotSupported 0 [])
  | .error (.wrongLength opc) => .next (s.respond opc .eNotSupported 0 [])
  | .error (.reservedBits opc) => .next (s.respond opc .eNotSupported 0 [])

/-- The words at the command port after the host offers it `words`: none is accepted when the port holds a whole frame,
and otherwise as many as the frame it holds the beginning of still lacks, so that the words of the next command stay
with the host (R10, R121, U17, log 15). -/
def portAccept (port words : List Word) : List Word :=
  match splitFrame port with
  | some _ => port
  | none =>
    match splitFrame (port ++ words) with
    | some (frame, _) => frame
    | none => port ++ words

/-- The host offers words to the command port, which accepts none while a STR_READ is in progress (R10, U17). -/
def State.acceptWords (words : List Word) (s : State) : State :=
  if s.rd.busy then s else { s with cmdPort := portAccept s.cmdPort words }

/-- One foreground step: the next step of the read in progress (R217), else the whole frame at the command port. While
a STR_READ is in progress no frame is taken (R10, U17); with no whole frame nothing changes (log 2). -/
def foregroundStep (s : State) : Result :=
  if s.rd.busy then
    if s.rd.left = 0 then rdEnd s else rdPop s
  else
    match splitFrame s.cmdPort with
    | none => .next s
    | some (frame, rest) => runFrame frame { s with cmdPort := rest }

/-- The reset input (R330): every field at the value of R55, the traces and the command port empty. The parameters and
what the environment does next are not the SCE's and stay (log 16). -/
def resetStep (s : State) : State :=
  { State.resetWith s.cfg with sched := s.sched, busScript := s.busScript, drawn := s.drawn, free := s.free }

/-- The step of an agent (R9). -/
def agentStep (a : AgentStep) (s : State) : Result :=
  match a with
  | .usTick => .next (usTick s)
  | .pinChange p v => .next (pinChange p v s)
  | .dispatch => dispatchStep s
  | .host words => foregroundStep (s.acceptWords words)
  | .reset => .next (resetStep s)

/-- The agent step that comes next: the first of the schedule, else a free value (R9, log 2). -/
def State.nextAgent (s : State) : AgentStep :=
  match s.sched with
  | a :: _ => a
  | [] => Config.agentStep s.drawn

/-- The next agent step is taken from the schedule, or from the free value. -/
def State.advance (s : State) : State :=
  match s.sched with
  | _ :: rest => { s with sched := rest }
  | [] => { s with drawn := s.drawn + 1 }

/-- Under PROMPT, while TRIGQ is not empty, the only enabled step is Dispatch: UsTick, PinChange and every foreground
step wait (R301). Reset may come between any two steps (R330). -/
def State.mustDispatch (s : State) : Bool :=
  decide (s.cfg.dispatchModel = .prompt) && !s.trigq.isEmpty &&
    match s.nextAgent with
    | .usTick => true
    | .pinChange _ _ => true
    | .host _ => true
    | .dispatch => false
    | .reset => false

/-- The next step of the machine: a Dispatch that PROMPT puts first, else the step of the next agent (R9, R301). -/
def nextStep (s : State) : Result :=
  if s.mustDispatch then dispatchStep s else agentStep s.nextAgent s.advance

/-- `s` with the command port empty, no read in progress, no trigger that PROMPT would put first, and next a foreground
step to which the host brings the words of a frame. -/
def State.withFrame (s : State) (frame : List Word) : State :=
  { s with
    cmdPort := []
    sched := .host frame :: s.sched
    rd := { s.rd with busy := false }
    trigq := if s.cfg.dispatchModel = .prompt then [] else s.trigq }

end Sys2Proof.Machine
end

