-- ==== Sys2Proof/Machine/Step.lean ====
section
/-! DEFINITION. The step of the machine, and the state whose next step runs a given instruction. -/

namespace Sys2Proof.Machine

/-- One step: one atomic step of one agent (R9). -/
def step (s : State) : Host.Outcome State Fault Refusal := nextStep s

/-- `s` with the instruction numbered as spec/opcode_table.json numbers its bits brought to the command port, so that
the very next step takes and runs it (log 11). -/
def State.withFetchWord (s : State) (nbits w : Nat) : State := s.withFrame (frameOfNumber nbits w)

end Sys2Proof.Machine
end

