-- ==== Sys2Proof/Safety.lean ====
section
/-! DEFINITION. What counts as a safe state: the shape of the tables, the descriptor invariant (10_state.md R45), the
engine invariants (R57 I1 to I5, R58), the ring invariants (R47) over the abstract view of the ring (20_memory.md R90),
and their conjunction. -/

namespace Sys2Proof.Machine

/-- The parameters meet R6 and every table has the length they give it (R34, R35, R37, R39, R40, R41). -/
abbrev State.Shaped (s : State) : Prop :=
  s.cfg.Ok ∧ s.i2c.length = s.cfg.nI2c ∧ s.spi.length = s.cfg.nSpi ∧ s.tmr.length = s.cfg.nTimers ∧
  s.pinLvl.length = s.cfg.nPins ∧ s.bind.length = s.cfg.nPins ∧ s.ch.length = s.cfg.nChannels

/-- What STR_CFG has checked of a stored descriptor (R45, R210). -/
abbrev Channel.DescriptorOk (p : Params) (d : Channel) : Prop :=
  busValid p d.bus = true ∧ d.blocks ≠ [] ∧ d.blocks.length ≤ p.maxBlocks ∧ (∀ b ∈ d.blocks, b.cnt ≠ 0) ∧
  blockTotal d.blocks + tsLen d.tsEn ≤ p.recCap ∧ (d.intEn = false → d.period ≠ 0) ∧
  (d.intEn = true → d.intPin.toNat < p.nPins ∧ d.intPol ≠ .reserved)

/-- Every stored descriptor satisfies the descriptor invariant (R45). -/
abbrev State.DescriptorsOk (s : State) : Prop := ∀ d ∈ s.ch, d.valid = true → d.DescriptorOk s.cfg

/-- A RUNNING timer has a handler and has not reached its timeout (R15(e), R38, R285). -/
abbrev Timer.Ok (t : Timer) : Prop :=
  (t.target = .none → t.state = .stopped) ∧ (t.state = .running → t.cnt.toNat < t.timeout.toNat)

/-- A timer whose handler is the engine's is never READY, and is RUNNING only as STREAM_TIMER of an engine armed in
POLLING mode (R37, R57 I2). -/
abbrev State.StreamTimerOk (s : State) (i : Nat) : Prop :=
  (s.timer i).target = .stream →
    (s.timer i).state ≠ .ready ∧
    ((s.timer i).state = .running → s.eng.armed = true ∧ s.eng.amode = .polling ∧ i = s.cfg.streamTimer)

/-- A valid binding has one of the three policies, and is the engine's only on a pin of a matching channel of an engine
armed in INTERRUPT mode (R40, R57 I2). -/
abbrev State.BindingOk (s : State) (p : Nat) : Prop :=
  (s.binding p).valid = true →
    (s.binding p).policy ≠ .reserved ∧
    ((s.binding p).target = .stream →
      s.eng.armed = true ∧ s.eng.amode = .interrupt ∧ (pinsOf (s.matching .interrupt)).contains p = true)

/-- A pending trigger's source is bound, and when it is bound to the engine the engine is armed in the mode of the
source (R57 I2, R288). -/
def State.triggerOk (s : State) (e : Trigger) : Bool :=
  match e.src with
  | .timer i =>
    decide (i < s.cfg.nTimers ∧ (s.timer i).target ≠ .none ∧
      ((s.timer i).target = .stream → s.eng.armed = true ∧ s.eng.amode = .polling ∧ i = s.cfg.streamTimer))
  | .pin p => decide (p < s.cfg.nPins ∧ (s.binding p).valid = true)

/-- An active channel belongs to an armed engine, matches its mode, has not reached the cap, and its divider has not
completed (R57 I2, I3, I4; R15(e), R42). -/
abbrev State.ActiveOk (s : State) (d : Channel) : Prop :=
  d.active = true →
    s.eng.armed = true ∧ d.matchesMode s.eng.amode = true ∧
    (s.eng.cap ≠ 0 → d.produced.toNat < s.eng.cap.toNat) ∧
    (d.intEn = false → d.divcnt.toNat < d.div.toNat)

/-- Every bus an armed channel references is configured (R57 I1). -/
abbrev State.BusesOk (s : State) : Prop :=
  s.eng.armed = true → ∀ d ∈ s.ch, d.matchesMode s.eng.amode = true → s.busConfigured d.bus = true

/-- The engine invariants (R57 I1 to I4) with what makes every step keep them. -/
abbrev State.EngineOk (s : State) : Prop :=
  s.BusesOk ∧ (∀ d ∈ s.ch, s.ActiveOk d) ∧ (∀ t ∈ s.tmr, t.Ok) ∧ (∀ i < s.cfg.nTimers, s.StreamTimerOk i) ∧
  (∀ p < s.cfg.nPins, s.BindingOk p) ∧ (∀ e ∈ s.trigq, s.triggerOk e = true)

/-- TRIGQ is within its capacity (R57 I5, R49). -/
abbrev State.QueueOk (s : State) : Prop := s.trigq.length ≤ s.cfg.trigqDepth

/-- Under PROMPT no trigger is ever lost and none waits: TRIGQ holds at most one entry per timer, TRIG_OVERRUN stays 0,
and a pending trigger was latched at the present US (R301). -/
abbrev State.PromptOk (s : State) : Prop :=
  s.cfg.dispatchModel = .prompt →
    s.trigq.length ≤ s.cfg.nTimers ∧ s.trigOverrun = false ∧ ∀ e ∈ s.trigq, e.ts = s.us

/-- `CONSUMED` of a record given as its bytes (R82). -/
def recConsumed (r : List Byte) : Bool := flagConsumed (r.getD 1 0)

/-- A record as its bytes has the layout of R82: TAG a channel id, FLAGS with bits 6:2 zero, LEN the length of the
payload, 1..REC_CAP, and room for the timestamp when TS is set. -/
def recWellFormed (p : Params) (r : List Byte) : Bool :=
  match r with
  | tag :: flags :: len :: payload =>
    decide (tag.toNat < p.nChannels) && decide (flags.extractLsb' 2 5 = 0) && decide (len.toNat = payload.length) &&
    decide (1 ≤ payload.length) && decide (payload.length ≤ p.recCap) &&
    (!flagTs flags || decide (tsBytes ≤ payload.length))
  | _ => false

/-- The records laid end to end in `rem` bytes of the ring from an offset (R47(b)), with fuel; `none` when they do not
fill it exactly. -/
def recordsFrom (cap : Nat) (m : Memory) : Nat → Nat → Nat → Option (List (List Byte))
  | 0, _, rem => if rem = 0 then some [] else none
  | fuel + 1, off, rem =>
    if rem = 0 then some []
    else
      match recordSizeAt cap m off with
      | .error _ => none
      | .ok size =>
        if rem < size then none
        else
          match ringRead cap m off size with
          | .error _ => none
          | .ok r =>
            match recordsFrom cap m fuel ((off + size) % cap) (rem - size) with
            | none => none
            | some rs => some (r :: rs)

/-- The abstract view `Q` of the ring (R90): its records from `head` to `tail`, the oldest first. -/
def Ring.view (cap : Nat) (r : Ring) : Option (List (List Byte)) := recordsFrom cap r.buf r.used r.head r.used

/-- The records of the ring are well formed and the oldest is unread (R47(b), (c)). -/
def viewOk (p : Params) (q : Option (List (List Byte))) : Bool :=
  match q with
  | none => false
  | some q => q.all (recWellFormed p) && q.head?.all fun r => !recConsumed r

/-- The ring invariants (R47): `head` and `used` in range, `tail` where they say, the used bytes a whole number of
well-formed records, the oldest of them unread. -/
abbrev Ring.Ok (p : Params) (r : Ring) : Prop :=
  r.buf.wf ∧ r.head < p.bufCap ∧ r.used ≤ p.bufCap ∧ r.tail = (r.head + r.used) % p.bufCap ∧
  viewOk p (r.view p.bufCap) = true

/-- The bytes a list of records takes (R90's `used`). -/
def viewUsed (q : List (List Byte)) : Nat := (q.map List.length).sum

/-- The leading consumed records are dropped (R90). -/
def viewReclaim (q : List (List Byte)) : List (List Byte) := q.dropWhile recConsumed

/-- The evictions of an abstract push of `n` bytes (R90), with fuel; the flag is OVF. -/
def viewEvict (cap n : Nat) : Nat → List (List Byte) → Bool → List (List Byte) × Bool
  | 0, q, ovf => (q, ovf)
  | fuel + 1, q, ovf => if cap - viewUsed q < n then viewEvict cap n fuel (viewReclaim q.tail) true else (q, ovf)

/-- `Push(rec)` on the abstract view (R90). -/
def viewPush (cap : Nat) (rec : List Byte) (q : List (List Byte)) (ovf : Bool) : List (List Byte) × Bool :=
  let e := viewEvict cap rec.length q.length q ovf
  (e.1 ++ [rec], e.2)

/-- A record as its bytes with CONSUMED set (R88, R90). -/
def recMark (r : List Byte) : List Byte := r.set 1 (markConsumed (r.getD 1 0))

/-- The first unread record that matches a filter, and the list with it marked (R90). -/
def viewTake (filter : Byte) : List (List Byte) → Option (List Byte × List (List Byte))
  | [] => none
  | r :: q =>
    if !recConsumed r && filterMatches filter (r.getD 0 0) then some (r, recMark r :: q)
    else
      match viewTake filter q with
      | none => none
      | some (x, q') => some (x, r :: q')

/-- `PopOne(f)` on the abstract view (R90). -/
def viewPop (filter : Byte) (q : List (List Byte)) : Option (List Byte) × List (List Byte) :=
  match viewTake filter q with
  | none => (none, q)
  | some (x, q') => (some x, viewReclaim q')

/-- One command at a time (R10, U17): between two steps no whole frame waits at the command port, and while a STR_READ
is in progress no word does. -/
abbrev State.PortOk (s : State) : Prop := splitFrame s.cmdPort = none ∧ (s.rd.busy = true → s.cmdPort = [])

/-- The safe states: everything above (R47, R57, R301, R10). -/
abbrev State.Inv (s : State) : Prop :=
  s.Shaped ∧ s.DescriptorsOk ∧ s.EngineOk ∧ s.QueueOk ∧ s.PromptOk ∧ s.ring.Ok s.cfg ∧ s.PortOk

/-- The bytes that a BusRead delivered (R91). -/
def answerBytes : BusAnswer → List Byte
  | .ok bytes => bytes
  | .fail => []

/-- What the fetch of a channel leaves in BUSLOG (R253, R254): one entry for each block from the first on, in order, with
the channel's bus and device and the block's register and count; an Ok entry holds that many bytes; no entry but the
last is a Fail, and the fetch reaches the last block unless the last entry is a Fail. -/
abbrev fetchLogged (d : Channel) (log : List BusRd) : Prop :=
  log.map (fun e => (e.bus, e.dev, e.reg, e.n)) =
    (d.blocks.take log.length).map (fun b => (d.bus, d.dev, b.reg, b.cnt.toNat)) ∧
  (∀ e ∈ log, e.result = .fail ∨ (answerBytes e.result).length = e.n) ∧
  (∀ e ∈ log.dropLast, e.result ≠ .fail) ∧
  (log.length = d.blocks.length ∨
    (log.length < d.blocks.length ∧ log.getLast?.map BusRd.result = some .fail))

/-- The record that R255 makes of what the fetch of channel c left in BUSLOG: TAG, FLAGS, LEN, then the bytes delivered,
zeros up to the length of a whole fetch (R253, log 10), and with `ts_en` the timestamp. -/
abbrev recordOf (c : Nat) (d : Channel) (ts : BitVec 64) (log : List BusRd) (r : List Byte) : Prop :=
  ∃ tag flags len : Byte,
    r = tag :: flags :: len :: (log.flatMap fun e => answerBytes e.result) ++
      List.replicate (blockTotal d.blocks - (log.flatMap fun e => answerBytes e.result).length) 0 ++
      (if d.tsEn then le64 ts else []) ∧
    tag.toNat = c ∧ len.toNat = blockTotal d.blocks + tsLen d.tsEn ∧
    ∀ k, flags.getLsbD k = ((decide (k = 0) && log.any fun e => decide (e.result = .fail)) || (decide (k = 1) && d.tsEn))

/-- An execution (R9): an infinite sequence of states, each the next state of the one before when the environment has
chosen the agent step `agents n` for step n. -/
abbrev Execution (agents : Nat → AgentStep) (run : Nat → State) : Prop :=
  ∀ n, step { run n with sched := [agents n] } = .next (run (n + 1))

/-- Step n of an execution is a Dispatch: PROMPT puts it first, or it is chosen (R301). -/
abbrev DispatchAt (agents : Nat → AgentStep) (run : Nat → State) (n : Nat) : Prop :=
  { run n with sched := [agents n] }.mustDispatch = true ∨ agents n = .dispatch

/-- Weak fairness of Dispatch, the one assumption of FAIR (R301): a Dispatch that stays enabled from a step on, that is
while TRIGQ is not empty (R289), is eventually taken. -/
abbrev WeaklyFair (agents : Nat → AgentStep) (run : Nat → State) : Prop :=
  ∀ n, (∀ m, n ≤ m → (run m).trigq ≠ []) → ∃ m, n ≤ m ∧ DispatchAt agents run m

/-- The descriptor of a channel (R41): the channel with its run-time fields (R42) erased. -/
def Channel.descriptor (d : Channel) : Channel := { d with active := false, produced := 0, div := 0, divcnt := 0 }

/-- A header selects the row of spec/opcode_table.json that the command stands in (R143). -/
def selectsRow (h : Word) (i : Instr) : Bool := decide (h &&& i.rowMask = i.rowMatch)

/-- The bits of the extension words that R133 marks reserved are 0; only STR_CFG has any (R133, R138). -/
def extensionLegal (h : Word) (ext : List Word) : Bool :=
  if opcOf h = 0x30 then
    match ext with
    | [] => true
    | e0 :: blocks => decide (e0 &&& 0x300 = 0) && blocks.all fun w => decide (w &&& 0xFFFF0000 = 0)
  else true

/-- The error statuses that the table of R281 lets a legal frame of a command raise. -/
def statusesOf : Instr → List Status
  | .busCfg bus _ _ => [invalidBus bus.kind, alreadyConfigured bus.kind, .eI2cConfigFailed]
  | .busCfgw _ _ _ _ => [.eSpiInvalidBus, .eSpiAlreadyConfigured, .eSpiNotConfigured]
  | .busDecfg bus => [invalidBus bus.kind, notConfigured bus.kind, .eFailure]
  | .tmrCfg _ _ => [.eTimerInvalidInstance]
  | .tmrStart _ _ _ => [.eTimerInvalidInstance, .eTimerInitFailed]
  | .tmrStop _ => [.eTimerInvalidInstance]
  | .tmrReset _ => [.eTimerInvalidInstance]
  | .intAttach _ _ _ => [.eFailure]
  | .intDetach _ => [.eFailure]
  | .strCfg _ bus _ _ _ _ _ _ _ _ => [.eFailure, invalidBus bus.kind, configFailed bus.kind]
  | .strStart _ _ => [.eFailure, .eSpiNotConfigured, .eI2cNotConfigured, .eTimerInvalidInstance]
  | .strStop _ _ => []
  | .strRead _ _ => [.eFailure]
  | .getMs => []
  | .getUs => []

end Sys2Proof.Machine
end

