-- ==== Sys2Proof/Certificates/Slice0/Obligations.lean ====
section
/-! DEFINITION. The statements for the provers. Each docstring names the rules of spec/ it formalises; a statement that
rests on a choice of the model says so and names its log entry. `t = { s with … }` is the frame: every field that is
not listed, with the ring memory and the descriptors among them, is unchanged. -/

section

open Sys2Proof Sys2Proof.Machine

/-! ## Encoding -/

/-- Decoding the frame of a well-formed command gives the command back, for every operand value (R121 to R135). -/
def Obligations.DecodeInvertsEncode : Prop :=
  ∀ i : Instr, i.wf = true → decode (encode i) = .ok i

/-- A frame that decodes is the frame of the command it decodes to, and the command is well formed: no bit of a legal
frame is dropped, and no two frames carry one command (R121 to R135, R138). -/
def Obligations.EncodeInvertsDecode : Prop :=
  ∀ (frame : List Word) (i : Instr), decode frame = .ok i → encode i = frame ∧ i.wf = true

/-- R143: the header of a legal frame selects its command's row of the opcode table and no other row, and a header that
selects no row is the header of no legal frame. -/
def Obligations.HeaderSelectsOneRow : Prop :=
  (∀ (h : Word) (ext : List Word) (i : Instr), decode (h :: ext) = .ok i →
    ∀ j : Instr, selectsRow h j = true ↔ j.rowMatch = i.rowMatch ∧ j.rowMask = i.rowMask) ∧
  (∀ (h : Word) (ext : List Word), (∀ j : Instr, selectsRow h j = false) →
    ∀ i : Instr, decode (h :: ext) ≠ .ok i)

/-- R138: a whole frame is legal exactly when its header selects a row and the reserved bits of its extension words are
0; a legal frame runs as its command, an illegal one is answered with its OPC and E_NOT_SUPPORTED and changes nothing
else; a frame whose OPC selects no row whatever its other bits is one word. -/
def Obligations.IllegalFrameNotSupported : Prop :=
  (∀ (h : Word) (ext : List Word) (s : State), ext.length + 1 = frameWords h →
    (((∃ j : Instr, selectsRow h j = true) ∧ extensionLegal h ext = true) →
      ∃ i : Instr, decode (h :: ext) = .ok i ∧ runFrame (h :: ext) s = exec i s) ∧
    (¬((∃ j : Instr, selectsRow h j = true) ∧ extensionLegal h ext = true) →
      runFrame (h :: ext) s = .next (s.respond (opcOf h) .eNotSupported 0 []))) ∧
  (∀ h : Word, (∀ j : Instr, opcOf h ≠ opcOf j.rowMatch) → frameWords h = 1)

/-- R121, R138: a frame is as many words as its header says, by OPC and, for STR_CFG, NB, whatever its other bits, and
one word when no row of R121 has the OPC. The foreground takes whole frames, legal or not, in the order of their words:
after a frame come exactly the words that follow it, and a frame whose words are not all there is not taken; the frame
of a command is such a frame. The command port accepts words up to the end of the frame it holds the beginning of, over
as many host steps as they come in, and not one more before that frame is taken (R10; U17; as host steps, log 15). -/
def Obligations.FramesTakenWhole : Prop :=
  (∀ h : Word, frameWords h =
    if opcOf h = 0x11 then 2 else if opcOf h = 0x30 then 2 + (h.extractLsb' 20 4).toNat else 1) ∧
  (∀ (h : Word) (ext rest : List Word), ext.length + 1 = frameWords h →
    splitFrame (h :: ext ++ rest) = some (h :: ext, rest) ∧
    (∀ n, n < frameWords h → splitFrame ((h :: ext).take n) = none) ∧
    (∀ n, portAccept ((h :: ext).take n) ((h :: ext).drop n ++ rest) = h :: ext) ∧
    ∀ n m, n ≤ m → m < frameWords h → portAccept ((h :: ext).take n) (((h :: ext).take m).drop n) = (h :: ext).take m) ∧
  ∀ (i : Instr) (rest : List Word), i.wf = true →
    splitFrame (encode i ++ rest) = some (encode i, rest) ∧
    ∀ n, n < (encode i).length → splitFrame ((encode i).take n) = none

/-- R142: on a byte transport a word is four bytes, the least significant first, and words are sent in frame order, so
that the byte stream of a list of words gives the words back. -/
def Obligations.ByteTransportRoundTrip : Prop :=
  (∀ w : Word, bytesOfWord w =
    [BitVec.ofNat 8 w.toNat, BitVec.ofNat 8 (w.toNat / 2 ^ 8), BitVec.ofNat 8 (w.toNat / 2 ^ 16),
     BitVec.ofNat 8 (w.toNat / 2 ^ 24)]) ∧
  ∀ ws : List Word, wordsOfBytes (ws.flatMap bytesOfWord) = (ws, [])

/-- The example frames of R161, R162, R180, R181, R200, R210 and R217, written out as the spec gives them, decode to the
commands the spec gives beside them. -/
def Obligations.ExampleFramesDecode : Prop :=
  decode [0x01000101] = .ok (.busCfg { kind := .i2c, idx := 0 } 1 1) ∧
  decode [0x02810280] = .ok (.busCfgw { kind := .spi, idx := 1 } 2 true 0) ∧
  decode [0x1001005A] = .ok (.tmrCfg 1 0x5A) ∧
  decode [0x11010000, 0x000003E8] = .ok (.tmrStart 1 false 1000) ∧
  decode [0x20050107] = .ok (.intAttach 5 .risingEdge 7) ∧
  decode [0x30100018, 0x000A6000, 0x00000002] =
    .ok (.strCfg 0 { kind := .i2c, idx := 0 } 0x18 10 .milliseconds true false .onChange 0 [{ reg := 0, cnt := 2 }]) ∧
  decode [0x3200000A] = .ok (.strRead 0 10)

/-! ## Steps, responses, rejections -/

/-- When the foreground steps next and no read is in progress, the command port accepts what the host brings, up to the
end of a frame (log 15). If it then holds a whole frame that decodes to a command, step is exec of the command in the
state with the agent step taken from the schedule and the frame taken from the command port; if the frame decodes to
none, step is the rejection of R138; with no whole frame nothing but the port and the schedule changes (log 2). Taking
the agent step from the schedule changes nothing but the schedule, from which the step taken is gone (log 2). -/
def Obligations.StepRunsDecodedCommand : Prop :=
  ∀ (s : State) (words : List Word), s.mustDispatch = false → s.nextAgent = .host words → s.rd.busy = false →
    (∀ frame rest, splitFrame (portAccept s.cmdPort words) = some (frame, rest) →
      (∀ i : Instr, decode frame = .ok i → step s = exec i { s.advance with cmdPort := rest }) ∧
      (∀ h ext, frame = h :: ext → (∀ i : Instr, decode frame ≠ .ok i) →
        step s = .next ({ s.advance with cmdPort := rest }.respond (opcOf h) .eNotSupported 0 []))) ∧
    (splitFrame (portAccept s.cmdPort words) = none →
      step s = .next { s.advance with cmdPort := portAccept s.cmdPort words }) ∧
    s.advance = { s with sched := s.sched.tail, drawn := s.advance.drawn }

/-- R301, PROMPT: while TRIGQ is not empty the step is a Dispatch, whatever agent is next, but for the reset input,
which R330 lets come between any two steps and which then takes its step; under FAIR, and with TRIGQ empty, the agent
that is next takes its step. That a Dispatch that is put first leaves the schedule as it is, is the model's choice
(log 2). R301, FAIR: in an execution in which a Dispatch that stays enabled is eventually taken, every pending trigger
is eventually dispatched, unless a step removes it: the reset input, a command that purges it, or the auto-stop of the
tick of a trigger before it. -/
def Obligations.PromptDispatchesFirst : Prop :=
  (∀ s : State,
    (s.cfg.dispatchModel = .prompt → s.trigq ≠ [] → s.nextAgent ≠ .reset →
      step s = dispatchStep s ∨ (s.nextAgent = .dispatch ∧ step s = dispatchStep s.advance)) ∧
    (s.cfg.dispatchModel = .prompt → s.trigq ≠ [] → s.nextAgent = .reset → step s = agentStep .reset s.advance) ∧
    (s.cfg.dispatchModel = .fair ∨ s.trigq = [] → step s = agentStep s.nextAgent s.advance)) ∧
  ∀ (agents : Nat → AgentStep) (run : Nat → State), Execution agents run → WeaklyFair agents run →
    ∀ (n : Nat) (e : Trigger), e ∈ (run n).trigq → ∃ m, n ≤ m ∧
      ((DispatchAt agents run m ∧ (run m).trigq.head? = some e) ∨
        (e ∈ (run m).trigq ∧ e ∉ (run (m + 1)).trigq ∧
          (agents m = .reset ∨ (∃ words, agents m = .host words) ∨
            (DispatchAt agents run m ∧ (run (m + 1)).eng.armed = false))))

/-- R136, R281: every command completes in every state; it answers one response frame, which echoes its opcode, carries
SUCCESS or a status that R281 lists for the command, COUNT 0, and a payload only with SUCCESS; but for a STR_READ that
is accepted, which answers at RdEnd and leaves a read in progress (R217). -/
def Obligations.CommandAnswersOnce : Prop :=
  ∀ (i : Instr) (s : State), ∃ t, exec i s = .next t ∧
    ((∃ st payload, (st = .success ∨ st ∈ statusesOf i) ∧ (st ≠ .success → payload = []) ∧
        t.rsp = s.rsp ++ [responseHead i.opcode.code (s.cfg.statusCode.code st) 0 :: payload]) ∨
      ((∃ chf maxRecords, i = .strRead chf maxRecords) ∧ t.rsp = s.rsp ∧ t.rd.busy = true))

/-- R12, R139: a command whose answer carries a status other than SUCCESS has written nothing but its response. -/
def Obligations.RejectionChangesNothing : Prop :=
  ∀ (i : Instr) (s t : State) (head : Word) (payload : List Word), exec i s = .next t →
    t.rsp = s.rsp ++ [head :: payload] → head.extractLsb' 16 8 ≠ s.cfg.statusCode.success →
    t = { s with rsp := t.rsp }

/-- No command touches the ring as it is accepted, that is in exec: every byte of the ring space reads as before, and
head, tail, used and OVF are as before (R80). Of STR_READ, exec is the step RdBegin alone (R217, log 14); the RdPop and
RdEnd steps of the read, which do write the ring and OVF (R88, R54), are ReadPopsOneRecord and ReadEndReportsOverflow.
Nor does a command write US (R32), PINLVL (R39), TRIG_OVERRUN (R50), the callback and bus traces
(R53), the parameters (R5), or what the environment does next. -/
def Obligations.CommandsLeaveRingAndTime : Prop :=
  ∀ (i : Instr) (s t : State), exec i s = .next t →
    (∀ a, t.ring.buf.read a = s.ring.buf.read a) ∧
    t = { s with
      i2c := t.i2c, spi := t.spi, tmr := t.tmr, bind := t.bind, ch := t.ch, eng := t.eng, trigq := t.trigq,
      rd := t.rd, rsp := t.rsp, free := t.free }

/-! ## Bus Manager -/

/-- R161: BUS_CFG, its three checks in order, and its effect. There is no check for a bus in use: such a bus is
configured and answers ALREADY_CONFIGURED by check 2; the row D14 of 92_eei_decisions.md says E_FAILURE, and the model's
choice is the rule (log 9). -/
def Obligations.BusCfgConfigures : Prop :=
  ∀ (s : State) (bus : BusRef) (speed : Byte) (bmode : BitVec 4), s.Shaped →
    (busValid s.cfg bus = false →
      exec (.busCfg bus speed bmode) s = .next (s.respond 0x01 (invalidBus bus.kind) 0 [])) ∧
    (busValid s.cfg bus = true → s.busConfigured bus = true →
      exec (.busCfg bus speed bmode) s = .next (s.respond 0x01 (alreadyConfigured bus.kind) 0 [])) ∧
    (busValid s.cfg bus = true → s.busConfigured bus = false → bus.kind = .i2c → 2 < bmode.toNat →
      exec (.busCfg bus speed bmode) s = .next (s.respond 0x01 .eI2cConfigFailed 0 [])) ∧
    (busValid s.cfg bus = true → s.busConfigured bus = false → bus.kind = .i2c → bmode.toNat ≤ 2 →
      ∃ t, exec (.busCfg bus speed bmode) s = .next t ∧
        t.i2cBus bus.idx.toNat = { configured := true, speed := speed, mode := bmode } ∧
        (∀ j, j ≠ bus.idx.toNat → t.i2cBus j = s.i2cBus j) ∧
        t.rsp = s.rsp ++ [[0x01000000]] ∧ t = { s with i2c := t.i2c, rsp := t.rsp }) ∧
    (busValid s.cfg bus = true → s.busConfigured bus = false → bus.kind = .spi →
      ∃ t, exec (.busCfg bus speed bmode) s = .next t ∧
        t.spiBus bus.idx.toNat = { configured := true, speed := speed, mode := bmode, width16 := false } ∧
        (∀ j, j ≠ bus.idx.toNat → t.spiBus j = s.spiBus j) ∧
        t.rsp = s.rsp ++ [[0x01000000]] ∧ t = { s with spi := t.spi, rsp := t.rsp })

/-- R162: BUS_CFGW, its three checks in order, and its effect. There is no check for a bus in use: such a bus is
configured and answers E_SPI_ALREADY_CONFIGURED by check 2; the row D14 of 92_eei_decisions.md says E_FAILURE, and the
model's choice is the rule (log 9). -/
def Obligations.BusCfgwConfiguresSpi : Prop :=
  ∀ (s : State) (bus : BusRef) (speed : Byte) (w16 : Bool) (bmode : BitVec 4), s.Shaped →
    (bus.kind = .i2c ∨ s.cfg.nSpi ≤ bus.idx.toNat →
      exec (.busCfgw bus speed w16 bmode) s = .next (s.respond 0x02 .eSpiInvalidBus 0 [])) ∧
    (bus.kind = .spi → bus.idx.toNat < s.cfg.nSpi → (s.spiBus bus.idx.toNat).configured = true →
      exec (.busCfgw bus speed w16 bmode) s = .next (s.respond 0x02 .eSpiAlreadyConfigured 0 [])) ∧
    (bus.kind = .spi → bus.idx.toNat < s.cfg.nSpi → (s.spiBus bus.idx.toNat).configured = false →
      w16 = true → s.cfg.spi16Ok[bus.idx.toNat]? = some false →
      exec (.busCfgw bus speed w16 bmode) s = .next (s.respond 0x02 .eSpiNotConfigured 0 [])) ∧
    (bus.kind = .spi → bus.idx.toNat < s.cfg.nSpi → (s.spiBus bus.idx.toNat).configured = false →
      (w16 = false ∨ s.cfg.spi16Ok[bus.idx.toNat]? = some true) →
      ∃ t, exec (.busCfgw bus speed w16 bmode) s = .next t ∧
        t.spiBus bus.idx.toNat = { configured := true, speed := speed, mode := bmode, width16 := w16 } ∧
        (∀ j, j ≠ bus.idx.toNat → t.spiBus j = s.spiBus j) ∧
        t.rsp = s.rsp ++ [[0x02000000]] ∧ t = { s with spi := t.spi, rsp := t.rsp })

/-- R163, R164: BUS_DECFG, its three checks in order, with BusInUse spelled out, and its effect: the configured flag of
the bus is cleared and no other bus is touched. What the other fields of the bus hold after it is not said
(U2, log 5). -/
def Obligations.BusDecfgClearsFlag : Prop :=
  ∀ (s : State) (bus : BusRef), s.Shaped →
    (busValid s.cfg bus = false → exec (.busDecfg bus) s = .next (s.respond 0x03 (invalidBus bus.kind) 0 [])) ∧
    (busValid s.cfg bus = true → s.busConfigured bus = false →
      exec (.busDecfg bus) s = .next (s.respond 0x03 (notConfigured bus.kind) 0 [])) ∧
    (busValid s.cfg bus = true → s.busConfigured bus = true →
      (s.eng.armed = true ∧ ∃ d ∈ s.ch, d.valid = true ∧ d.mode = s.eng.amode ∧ d.bus = bus) →
      exec (.busDecfg bus) s = .next (s.respond 0x03 .eFailure 0 [])) ∧
    (busValid s.cfg bus = true → s.busConfigured bus = true →
      ¬(s.eng.armed = true ∧ ∃ d ∈ s.ch, d.valid = true ∧ d.mode = s.eng.amode ∧ d.bus = bus) →
      ∃ t, exec (.busDecfg bus) s = .next t ∧ t.busConfigured bus = false ∧
        (∀ j, (bus.kind = .i2c ∧ j = bus.idx.toNat) ∨ t.i2cBus j = s.i2cBus j) ∧
        (∀ j, (bus.kind = .spi ∧ j = bus.idx.toNat) ∨ t.spiBus j = s.spiBus j) ∧
        t.rsp = s.rsp ++ [[0x03000000]] ∧ t = { s with i2c := t.i2c, spi := t.spi, rsp := t.rsp, free := t.free })

/-! ## Timer Subsystem -/

/-- R180: TMR_CFG, its two checks in order, and its effect. -/
def Obligations.TmrCfgBindsHandler : Prop :=
  ∀ (s : State) (inst tag : Byte), s.Shaped →
    (s.cfg.nTimers ≤ inst.toNat →
      exec (.tmrCfg inst tag) s = .next (s.respond 0x10 .eTimerInvalidInstance 0 [])) ∧
    (inst.toNat < s.cfg.nTimers → (s.timer inst.toNat).state = .running →
      exec (.tmrCfg inst tag) s = .next (s.respond 0x10 .eTimerInvalidInstance 0 [])) ∧
    (inst.toNat < s.cfg.nTimers → (s.timer inst.toNat).state ≠ .running →
      ∃ t, exec (.tmrCfg inst tag) s = .next t ∧
        t.timer inst.toNat = { s.timer inst.toNat with state := .ready, target := .ext tag } ∧
        (∀ j, j ≠ inst.toNat → t.timer j = s.timer j) ∧
        t.trigq = s.trigq.filter (fun e => decide (e.src ≠ .timer inst.toNat)) ∧
        t.rsp = s.rsp ++ [[0x10000000]] ∧ t = { s with tmr := t.tmr, trigq := t.trigq, rsp := t.rsp })

/-- R181: TMR_START, its four checks in order, and its effect. -/
def Obligations.TmrStartArmsTimer : Prop :=
  ∀ (s : State) (inst : Byte) (oneshot : Bool) (timeout : BitVec 32), s.Shaped →
    (s.cfg.nTimers ≤ inst.toNat →
      exec (.tmrStart inst oneshot timeout) s = .next (s.respond 0x11 .eTimerInvalidInstance 0 [])) ∧
    (inst.toNat < s.cfg.nTimers → (s.timer inst.toNat).state ≠ .ready →
      exec (.tmrStart inst oneshot timeout) s = .next (s.respond 0x11 .eTimerInvalidInstance 0 [])) ∧
    (inst.toNat < s.cfg.nTimers → (s.timer inst.toNat).state = .ready → timeout = 0 →
      exec (.tmrStart inst oneshot timeout) s = .next (s.respond 0x11 .eTimerInitFailed 0 [])) ∧
    (inst.toNat < s.cfg.nTimers → (s.timer inst.toNat).state = .ready → timeout ≠ 0 →
      ∃ t, exec (.tmrStart inst oneshot timeout) s = .next t ∧
        t.timer inst.toNat =
          { state := .running, target := (s.timer inst.toNat).target, timeout := timeout, cnt := 0,
            oneshot := oneshot } ∧
        (∀ j, j ≠ inst.toNat → t.timer j = s.timer j) ∧
        t.rsp = s.rsp ++ [[0x11000000]] ∧ t = { s with tmr := t.tmr, rsp := t.rsp })

/-- R182: TMR_STOP from any state of the timer: STOPPED, the target kept, its triggers purged; a stop of a STOPPED timer
leaves it as it is. What the other fields of a timer hold after it is stopped is not said (U2, log 5). -/
def Obligations.TmrStopDisarmsTimer : Prop :=
  ∀ (s : State) (inst : Byte), s.Shaped →
    (s.cfg.nTimers ≤ inst.toNat →
      exec (.tmrStop inst) s = .next (s.respond 0x12 .eTimerInvalidInstance 0 [])) ∧
    (inst.toNat < s.cfg.nTimers →
      ∃ t, exec (.tmrStop inst) s = .next t ∧
        (t.timer inst.toNat).state = .stopped ∧ (t.timer inst.toNat).target = (s.timer inst.toNat).target ∧
        ((s.timer inst.toNat).state = .stopped → t.timer inst.toNat = s.timer inst.toNat) ∧
        (∀ j, j ≠ inst.toNat → t.timer j = s.timer j) ∧
        t.trigq = s.trigq.filter (fun e => decide (e.src ≠ .timer inst.toNat)) ∧
        t.rsp = s.rsp ++ [[0x12000000]] ∧
        t = { s with tmr := t.tmr, trigq := t.trigq, rsp := t.rsp, free := t.free })

/-- R183: TMR_RESET: a RUNNING timer's count becomes 0, any other timer is left as it is, no trigger is purged. -/
def Obligations.TmrResetRestartsCount : Prop :=
  ∀ (s : State) (inst : Byte), s.Shaped →
    (s.cfg.nTimers ≤ inst.toNat →
      exec (.tmrReset inst) s = .next (s.respond 0x13 .eTimerInvalidInstance 0 [])) ∧
    (inst.toNat < s.cfg.nTimers →
      ∃ t, exec (.tmrReset inst) s = .next t ∧
        ((s.timer inst.toNat).state = .running → t.timer inst.toNat = { s.timer inst.toNat with cnt := 0 }) ∧
        ((s.timer inst.toNat).state ≠ .running → t.timer inst.toNat = s.timer inst.toNat) ∧
        (∀ j, j ≠ inst.toNat → t.timer j = s.timer j) ∧
        t.rsp = s.rsp ++ [[0x13000000]] ∧ t = { s with tmr := t.tmr, rsp := t.rsp })

/-- R184: GET_MS answers (US div 1000) mod 2^32 and writes no state. -/
def Obligations.GetMsAnswersMilliseconds : Prop :=
  ∀ s : State, s.Shaped →
    exec .getMs s = .next { s with rsp := s.rsp ++ [[0x40000000, BitVec.ofNat 32 (s.us.toNat / 1000 % 2 ^ 32)]] }

/-- R185: GET_US answers US[31:0], then US[63:32], of one instant, and writes no state. -/
def Obligations.GetUsAnswersCounter : Prop :=
  ∀ s : State, s.Shaped →
    ∃ lo hi : Word, exec .getUs s = .next { s with rsp := s.rsp ++ [[0x41000000, lo, hi]] } ∧
      s.us.toNat = hi.toNat * 2 ^ 32 + lo.toNat

/-! ## Interrupt Dispatch -/

/-- R200: INT_ATTACH, its two checks, and its effect, whatever binding was there before. -/
def Obligations.IntAttachReplacesBinding : Prop :=
  ∀ (s : State) (pin : Byte) (policy : Policy) (tag : Byte), s.Shaped →
    (s.cfg.nPins ≤ pin.toNat ∨ policy = .reserved →
      exec (.intAttach pin policy tag) s = .next (s.respond 0x20 .eFailure 0 [])) ∧
    (pin.toNat < s.cfg.nPins → policy ≠ .reserved →
      ∃ t, exec (.intAttach pin policy tag) s = .next t ∧
        t.binding pin.toNat = { valid := true, policy := policy, target := .ext tag } ∧
        (∀ p, p ≠ pin.toNat → t.binding p = s.binding p) ∧
        t.trigq = s.trigq.filter (fun e => decide (e.src ≠ .pin pin.toNat)) ∧
        t.rsp = s.rsp ++ [[0x20000000]] ∧ t = { s with bind := t.bind, trigq := t.trigq, rsp := t.rsp })

/-- R201: INT_DETACH removes the binding of the pin and purges its triggers; with no binding and no trigger of the pin
it changes nothing but the response. What the other fields of a removed binding hold is not said (U2, log 5). -/
def Obligations.IntDetachRemovesBinding : Prop :=
  ∀ (s : State) (pin : Byte), s.Shaped →
    (s.cfg.nPins ≤ pin.toNat → exec (.intDetach pin) s = .next (s.respond 0x21 .eFailure 0 [])) ∧
    (pin.toNat < s.cfg.nPins →
      ∃ t, exec (.intDetach pin) s = .next t ∧
        (t.binding pin.toNat).valid = false ∧
        ((s.binding pin.toNat).valid = false → t.binding pin.toNat = s.binding pin.toNat ∧ t.free = s.free) ∧
        (∀ p, p ≠ pin.toNat → t.binding p = s.binding p) ∧
        t.trigq = s.trigq.filter (fun e => decide (e.src ≠ .pin pin.toNat)) ∧
        t.rsp = s.rsp ++ [[0x21000000]] ∧
        t = { s with bind := t.bind, trigq := t.trigq, rsp := t.rsp, free := t.free })

/-! ## Streaming Engine -/

/-- R210: STR_CFG, its nine checks in order (checks 4 to 9 share one status), and its effect: the whole descriptor, with
`active` and `produced` 0; that `div` and `divcnt`, which step 10 does not name, keep their values is the model's choice
(DEDUCED, log 12). -/
def Obligations.StrCfgStoresDescriptor : Prop :=
  ∀ (s : State) (chan : BitVec 4) (bus : BusRef) (dev : Byte) (period : BitVec 16) (unit : UnitCode)
    (tsEn intEn : Bool) (intPol : Policy) (intPin : Byte) (blocks : List Block), s.Shaped →
    ((s.eng.armed = true ∨ s.cfg.nChannels ≤ chan.toNat) →
      exec (.strCfg chan bus dev period unit tsEn intEn intPol intPin blocks) s =
        .next (s.respond 0x30 .eFailure 0 [])) ∧
    (s.eng.armed = false → chan.toNat < s.cfg.nChannels → busValid s.cfg bus = false →
      exec (.strCfg chan bus dev period unit tsEn intEn intPol intPin blocks) s =
        .next (s.respond 0x30 (invalidBus bus.kind) 0 [])) ∧
    (s.eng.armed = false → chan.toNat < s.cfg.nChannels → busValid s.cfg bus = true →
      (s.busConfigured bus = false ∨ blocks = [] ∨ s.cfg.maxBlocks < blocks.length ∨ (∃ b ∈ blocks, b.cnt = 0) ∨
        s.cfg.recCap < blockTotal blocks + (if tsEn then 8 else 0) ∨
        unit = .unrecognised2 ∨ unit = .unrecognised3 ∨ (intEn = false ∧ period = 0) ∨
        (intEn = true ∧ (s.cfg.nPins ≤ intPin.toNat ∨ intPol = .reserved))) →
      exec (.strCfg chan bus dev period unit tsEn intEn intPol intPin blocks) s =
        .next (s.respond 0x30 (configFailed bus.kind) 0 [])) ∧
    (s.eng.armed = false → chan.toNat < s.cfg.nChannels → busValid s.cfg bus = true → s.busConfigured bus = true →
      blocks ≠ [] → blocks.length ≤ s.cfg.maxBlocks → (∀ b ∈ blocks, b.cnt ≠ 0) →
      blockTotal blocks + (if tsEn then 8 else 0) ≤ s.cfg.recCap →
      (unit = .microseconds ∨ unit = .milliseconds) → (intEn = false → period ≠ 0) →
      (intEn = true → intPin.toNat < s.cfg.nPins ∧ intPol ≠ .reserved) →
      ∃ t, exec (.strCfg chan bus dev period unit tsEn intEn intPol intPin blocks) s = .next t ∧
        t.channel chan.toNat =
          { valid := true, bus := bus, dev := dev, blocks := blocks, period := period,
            unit := if unit = .milliseconds then .milliseconds else .microseconds, intEn := intEn, intPin := intPin,
            intPol := intPol, tsEn := tsEn, active := false, produced := 0,
            div := (s.channel chan.toNat).div, divcnt := (s.channel chan.toNat).divcnt } ∧
        (∀ c, c ≠ chan.toNat → t.channel c = s.channel c) ∧
        t.rsp = s.rsp ++ [[0x30000000]] ∧ t = { s with ch := t.ch, rsp := t.rsp })

/-- R212, checks 1 to 4: STR_START on an armed engine or with no matching channel is rejected with E_FAILURE; else with
the NOT_CONFIGURED status of the lowest-numbered matching channel whose bus is not configured; else, POLLING only, with
E_TIMER_INVALID_INSTANCE when STREAM_TIMER is RUNNING. -/
def Obligations.StrStartRejections : Prop :=
  ∀ (s : State) (mode : EngineMode) (count : BitVec 16),
    ((s.eng.armed = true ∨ ∀ d ∈ s.ch, ¬(d.valid = true ∧ d.mode = mode)) →
      exec (.strStart mode count) s = .next (s.respond 0x31 .eFailure 0 [])) ∧
    (∀ c, s.eng.armed = false → c < s.ch.length → (s.channel c).valid = true → (s.channel c).mode = mode →
      s.busConfigured (s.channel c).bus = false →
      (∀ b, b < c → (s.channel b).valid = true → (s.channel b).mode = mode →
        s.busConfigured (s.channel b).bus = true) →
      exec (.strStart mode count) s = .next (s.respond 0x31 (notConfigured (s.channel c).bus.kind) 0 [])) ∧
    (s.eng.armed = false → (∃ d ∈ s.ch, d.valid = true ∧ d.mode = mode) →
      (∀ d ∈ s.ch, d.valid = true → d.mode = mode → s.busConfigured d.bus = true) → mode = .polling →
      (s.timer s.cfg.streamTimer).state = .running →
      exec (.strStart mode count) s = .next (s.respond 0x31 .eTimerInvalidInstance 0 []))

/-- R212 step 5, POLLING, with R211 and R213: STREAM_TIMER runs, periodic, at the greatest common divisor of the
matching channels' periods, whatever handler it had; each matching channel is active, has produced nothing, and has the
divider that gives it its own period; no other channel changes; the timer's triggers are purged. -/
def Obligations.StrStartArmsPolling : Prop :=
  ∀ (s : State) (count : BitVec 16), s.Shaped → s.eng.armed = false →
    (∃ d ∈ s.ch, d.valid = true ∧ d.mode = .polling) →
    (∀ d ∈ s.ch, d.valid = true → d.mode = .polling → s.busConfigured d.bus = true) →
    (s.timer s.cfg.streamTimer).state ≠ .running →
    ∃ t, exec (.strStart .polling count) s = .next t ∧
      t.eng = { armed := true, amode := .polling, cap := count } ∧
      t.timer s.cfg.streamTimer =
        { state := .running, target := .stream, timeout := (t.timer s.cfg.streamTimer).timeout, cnt := 0,
          oneshot := false } ∧
      (∀ c, (s.channel c).valid = true → (s.channel c).mode = .polling →
        (t.timer s.cfg.streamTimer).timeout.toNat ∣ (s.channel c).periodUs) ∧
      (∀ k, (∀ c, (s.channel c).valid = true → (s.channel c).mode = .polling → k ∣ (s.channel c).periodUs) →
        k ∣ (t.timer s.cfg.streamTimer).timeout.toNat) ∧
      (∀ j, j ≠ s.cfg.streamTimer → t.timer j = s.timer j) ∧
      (∀ c, (s.channel c).valid = true → (s.channel c).mode = .polling →
        t.channel c = { s.channel c with active := true, produced := 0, divcnt := 0, div := (t.channel c).div } ∧
        (t.channel c).div.toNat * (t.timer s.cfg.streamTimer).timeout.toNat = (s.channel c).periodUs) ∧
      (∀ c, ¬((s.channel c).valid = true ∧ (s.channel c).mode = .polling) → t.channel c = s.channel c) ∧
      t.trigq = s.trigq.filter (fun e => decide (e.src ≠ .timer s.cfg.streamTimer)) ∧
      t.rsp = s.rsp ++ [[0x31000000]] ∧
      t = { s with tmr := t.tmr, ch := t.ch, eng := t.eng, trigq := t.trigq, rsp := t.rsp }

/-- R212 step 5, INTERRUPT, with R214: every pin of a matching channel is bound to the engine with the common policy of
its channels if they agree and ON_CHANGE if two differ, whatever binding it had; no other pin changes; each matching
channel is active and has produced nothing; the pins' triggers are purged. -/
def Obligations.StrStartArmsInterrupt : Prop :=
  ∀ (s : State) (count : BitVec 16), s.Shaped → s.eng.armed = false →
    (∃ d ∈ s.ch, d.valid = true ∧ d.mode = .interrupt) →
    (∀ d ∈ s.ch, d.valid = true → d.mode = .interrupt → s.busConfigured d.bus = true) →
    ∃ t, exec (.strStart .interrupt count) s = .next t ∧
      t.eng = { armed := true, amode := .interrupt, cap := count } ∧
      (∀ p, p < s.cfg.nPins → ∀ policy,
        (∃ d ∈ s.ch, d.valid = true ∧ d.mode = .interrupt ∧ d.intPin.toNat = p) →
        (∀ d ∈ s.ch, d.valid = true → d.mode = .interrupt → d.intPin.toNat = p → d.intPol = policy) →
        t.binding p = { valid := true, policy := policy, target := .stream }) ∧
      (∀ p, p < s.cfg.nPins → ∀ d ∈ s.ch, ∀ e ∈ s.ch,
        d.valid = true → d.mode = .interrupt → d.intPin.toNat = p →
        e.valid = true → e.mode = .interrupt → e.intPin.toNat = p → d.intPol ≠ e.intPol →
        t.binding p = { valid := true, policy := .onChange, target := .stream }) ∧
      (∀ p, (∀ d ∈ s.ch, d.valid = true → d.mode = .interrupt → d.intPin.toNat ≠ p) → t.binding p = s.binding p) ∧
      (∀ c, (s.channel c).valid = true → (s.channel c).mode = .interrupt →
        t.channel c = { s.channel c with active := true, produced := 0 }) ∧
      (∀ c, ¬((s.channel c).valid = true ∧ (s.channel c).mode = .interrupt) → t.channel c = s.channel c) ∧
      t.trigq = s.trigq.filter (fun e => decide
        (¬∃ d ∈ s.ch, d.valid = true ∧ d.mode = .interrupt ∧ e.src = .pin d.intPin.toNat)) ∧
      t.rsp = s.rsp ++ [[0x31000000]] ∧
      t = { s with bind := t.bind, ch := t.ch, eng := t.eng, trigq := t.trigq, rsp := t.rsp }

/-- R215, R216: STR_STOP. On an engine that is not armed nothing changes. Armed in POLLING mode, STREAM_TIMER is stopped
and its triggers purged; armed in INTERRUPT mode, the pins of the matching channels are unbound and their triggers
purged. In both the engine is disarmed, every channel becomes inactive and keeps its descriptor, and the ring is
untouched. That a stopped engine keeps `amode` and `cap` is the model's choice (DEDUCED, log 14). -/
def Obligations.StrStopDisarms : Prop :=
  ∀ (s : State) (mode : EngineMode) (count : BitVec 16), s.Shaped →
    (s.eng.armed = false →
      exec (.strStop mode count) s = .next { s with rsp := s.rsp ++ [[0x31000000]] }) ∧
    (s.eng.armed = true → s.eng.amode = .polling →
      ∃ t, exec (.strStop mode count) s = .next t ∧
        (t.timer s.cfg.streamTimer).state = .stopped ∧
        (t.timer s.cfg.streamTimer).target = (s.timer s.cfg.streamTimer).target ∧
        (∀ j, j ≠ s.cfg.streamTimer → t.timer j = s.timer j) ∧
        t.trigq = s.trigq.filter (fun e => decide (e.src ≠ .timer s.cfg.streamTimer)) ∧
        t.ch = s.ch.map (fun d => { d with active := false }) ∧ t.eng = { s.eng with armed := false } ∧
        t.rsp = s.rsp ++ [[0x31000000]] ∧
        t = { s with tmr := t.tmr, trigq := t.trigq, ch := t.ch, eng := t.eng, rsp := t.rsp, free := t.free }) ∧
    (s.eng.armed = true → s.eng.amode = .interrupt →
      ∃ t, exec (.strStop mode count) s = .next t ∧
        (∀ d ∈ s.ch, d.valid = true → d.mode = .interrupt → d.intPin.toNat < s.cfg.nPins →
          (t.binding d.intPin.toNat).valid = false) ∧
        (∀ p, (∀ d ∈ s.ch, d.valid = true → d.mode = .interrupt → d.intPin.toNat ≠ p) →
          t.binding p = s.binding p) ∧
        t.trigq = s.trigq.filter (fun e => decide
          (¬∃ d ∈ s.ch, d.valid = true ∧ d.mode = .interrupt ∧ e.src = .pin d.intPin.toNat)) ∧
        t.ch = s.ch.map (fun d => { d with active := false }) ∧ t.eng = { s.eng with armed := false } ∧
        t.rsp = s.rsp ++ [[0x31000000]] ∧
        t = { s with bind := t.bind, trigq := t.trigq, ch := t.ch, eng := t.eng, rsp := t.rsp, free := t.free })

/-- R217, RdBegin: STR_READ with a filter that is neither 0xFF nor a channel id is rejected with E_FAILURE; with any
other it begins a read and answers nothing yet. -/
def Obligations.StrReadBegins : Prop :=
  ∀ (s : State) (chf : Byte) (maxRecords : BitVec 16),
    (chf ≠ 0xFF → s.cfg.nChannels ≤ chf.toNat →
      exec (.strRead chf maxRecords) s = .next (s.respond 0x32 .eFailure 0 [])) ∧
    (chf = 0xFF ∨ chf.toNat < s.cfg.nChannels →
      exec (.strRead chf maxRecords) s =
        .next { s with rd := { busy := true, filter := chf, left := maxRecords, count := 0, out := [] } })

/-- R217, RdPop: while a read is in progress and records are still allowed, the foreground's step, whatever words the
host brings, takes one record with PopOne, appends it and counts it, or, when there is none, allows no more; it accepts
no word and takes no frame from the command port (R10; U17, log 15). -/
def Obligations.ReadPopsOneRecord : Prop :=
  ∀ (s : State) (words : List Word), s.Shaped → s.ring.Ok s.cfg → s.rd.busy = true → s.rd.left ≠ 0 →
    ∃ t, agentStep (.host words) s = .next t ∧
      ((popOne s.cfg.bufCap s.rd.filter s.ring = .ok (none, t.ring) ∧ t.rd = { s.rd with left := 0 }) ∨
        ∃ r, popOne s.cfg.bufCap s.rd.filter s.ring = .ok (some r, t.ring) ∧
          t.rd = { s.rd with out := s.rd.out ++ r, count := s.rd.count + 1, left := s.rd.left - 1 }) ∧
      t.cmdPort = s.cmdPort ∧ t = { s with ring := t.ring, rd := t.rd }

/-- R217, RdEnd, and R218: the foreground's step on a read that has no record left to take, whatever words the host
brings, answers SUCCESS with COUNT, the flags, the number of bytes and the bytes; bit 0 of the flags is OVF as it was at
this step, bit 1 is TRIG_OVERRUN, the other bits are 0; OVF is cleared and TRIG_OVERRUN is not; no word is accepted and
no frame is taken (R10; U17, log 15); a STR_READ that is rejected clears neither flag. That the other fields of RD keep
their values is the model's choice (DEDUCED, log 14). -/
def Obligations.ReadEndReportsOverflow : Prop :=
  (∀ (s : State) (words : List Word), s.Shaped → s.rd.busy = true → s.rd.left = 0 →
    ∃ t flags, agentStep (.host words) s = .next t ∧
      t.rsp = s.rsp ++ [responseHead 0x32 0 s.rd.count :: flags :: BitVec.ofNat 32 s.rd.out.length ::
        packWords s.rd.out] ∧
      (∀ k, flags.getLsbD k = ((decide (k = 0) && s.ring.ovf) || (decide (k = 1) && s.trigOverrun))) ∧
      t.cmdPort = s.cmdPort ∧
      t = { s with rsp := t.rsp, ring := { s.ring with ovf := false }, rd := { s.rd with busy := false } }) ∧
  (∀ (s t : State) (chf : Byte) (maxRecords : BitVec 16), chf ≠ 0xFF → s.cfg.nChannels ≤ chf.toNat →
    exec (.strRead chf maxRecords) s = .next t → t.ring.ovf = s.ring.ovf ∧ t.trigOverrun = s.trigOverrun)

/-- R136: the first word of a response frame has OPC in bits 31:24, the status code in bits 23:16 and COUNT in bits
15:0; of the record bytes of a STR_READ response, byte k is in word k div 4 at bits 8·(k mod 4) up, there are
ceil(NBYTES / 4) words, and the unused bytes of the last word are 0. -/
def Obligations.ResponseFrameLayout : Prop :=
  (∀ (opc code : Byte) (count : BitVec 16),
    (responseHead opc code count).extractLsb' 24 8 = opc ∧ (responseHead opc code count).extractLsb' 16 8 = code ∧
    (responseHead opc code count).extractLsb' 0 16 = count) ∧
  ∀ bytes : List Byte,
    (packWords bytes).length = (bytes.length + 3) / 4 ∧
    ∀ k, k < 4 * (packWords bytes).length →
      ((packWords bytes).getD (k / 4) 0).extractLsb' (8 * (k % 4)) 8 = bytes.getD k 0

/-! ## Response ring -/

/-- R84: RingWrite puts byte k of the bytes at offset (off + k) mod BUF_CAP and touches no other offset, so that
RingRead at the same place reads the bytes back. -/
def Obligations.RingWriteReadsBack : Prop :=
  ∀ (cap off : Nat) (m : Memory) (bytes : List Byte), off < cap → bytes.length ≤ cap →
    ringRead cap (ringWrite cap m off bytes) off bytes.length = .ok bytes ∧
    (∀ k, k < bytes.length → (ringWrite cap m off bytes).read ((off + k) % cap) = bytes[k]?) ∧
    (∀ a, (∀ k, k < bytes.length → a ≠ (off + k) % cap) → (ringWrite cap m off bytes).read a = m.read a)

/-- R85 to R87 against the abstract view of R90: on a ring with the invariants of R47, pushing a well-formed unread
record completes, keeps the invariants, and does to the list of records, to `used` and to OVF what R90 says. -/
def Obligations.PushRefinesAbstractPush : Prop :=
  ∀ (p : Params) (r : Ring) (rec : List Byte) (q : List (List Byte)), p.Ok → r.Ok p → r.view p.bufCap = some q →
    recWellFormed p rec = true → recConsumed rec = false →
    ∃ r', push p.bufCap rec r = .ok r' ∧ r'.Ok p ∧ r'.view p.bufCap = some (viewPush p.bufCap rec q r.ovf).1 ∧
      r'.ovf = (viewPush p.bufCap rec q r.ovf).2 ∧ r'.used = viewUsed (viewPush p.bufCap rec q r.ovf).1

/-- R88, R87 against the abstract view of R90: on a ring with the invariants of R47, PopOne completes, keeps the
invariants and OVF, returns what R90 says and leaves the list of records and `used` that R90 says. -/
def Obligations.PopRefinesAbstractPop : Prop :=
  ∀ (p : Params) (r : Ring) (filter : Byte) (q : List (List Byte)), p.Ok → r.Ok p → r.view p.bufCap = some q →
    ∃ r', popOne p.bufCap filter r = .ok ((viewPop filter q).1, r') ∧ r'.Ok p ∧
      r'.view p.bufCap = some (viewPop filter q).2 ∧ r'.ovf = r.ovf ∧ r'.used = viewUsed (viewPop filter q).2

/-- R88, FIFO: PopOne delivers the oldest unread record that matches the filter, with CONSUMED 0, and with the filter
0xFF that is the record at the head; it delivers none only when no unread record matches. -/
def Obligations.PopDeliversOldestMatch : Prop :=
  ∀ (p : Params) (r r' : Ring) (filter : Byte) (out : Option (List Byte)) (q : List (List Byte)), p.Ok → r.Ok p →
    r.view p.bufCap = some q → popOne p.bufCap filter r = .ok (out, r') →
    out = q.find? (fun x => !recConsumed x && filterMatches filter (x.getD 0 0)) ∧ (filter = 0xFF → out = q.head?)

/-! ## Tick sequencer -/

/-- R253: the fetch of a sample. With no failure every block is read once, in block order, and the data is the bytes
delivered; with a failure the blocks before it are read, no block after it is, and the data is the bytes delivered and
then zeros to the full length: that the bytes delivered before the failure stay is what R253 says and against the row
D39 of 92_eei_decisions.md and U6 (the model's choice, log 10). Nothing but BUSLOG, the bus script and the count of free
values is written. -/
def Obligations.FetchReadsBlocksInOrder : Prop :=
  ∀ (bus : BusRef) (dev : Byte) (blocks : List Block) (s : State),
    (fetchBlocks bus dev blocks false s).data.length = blockTotal blocks ∧
    (fetchBlocks bus dev blocks false s).state =
      { s with
        busLog := (fetchBlocks bus dev blocks false s).state.busLog
        busScript := (fetchBlocks bus dev blocks false s).state.busScript
        free := (fetchBlocks bus dev blocks false s).state.free } ∧
    ∃ (n : Nat) (delivered : List (List Byte)),
      delivered.length = n ∧ n ≤ blocks.length ∧ (∀ k, k < n → ∀ b ∈ blocks[k]?, ∀ d ∈ delivered[k]?,
        d.length = b.cnt.toNat) ∧
      (fetchBlocks bus dev blocks false s).data =
        delivered.flatten ++ List.replicate (blockTotal (blocks.drop n)) 0 ∧
      ((fetchBlocks bus dev blocks false s).err = decide (n < blocks.length)) ∧
      (fetchBlocks bus dev blocks false s).state.busLog =
        s.busLog ++
          List.zipWith (fun b d => ({ bus := bus, dev := dev, reg := b.reg, n := b.cnt.toNat, result := .ok d } : BusRd))
            (blocks.take n) delivered ++
          ((blocks.drop n).take 1).map (fun b =>
            { bus := bus, dev := dev, reg := b.reg, n := b.cnt.toNat, result := .fail })

/-- R255, R82, R81: the bytes of a formatted record: TAG, FLAGS with ERR in bit 0, TS in bit 1 and the rest 0, LEN, the
data, and with `ts_en` the 8 bytes of the timestamp, the least significant first. -/
def Obligations.RecordLayout : Prop :=
  ∀ (c : Nat) (tsEn err : Bool) (data : List Byte) (ts : BitVec 64),
    c < 16 → data.length + (if tsEn then 8 else 0) ≤ 255 →
    ∃ tag flags len stamp, formatRecord c tsEn err data ts = tag :: flags :: len :: (data ++ stamp) ∧
      tag.toNat = c ∧ (∀ k, flags.getLsbD k = ((decide (k = 0) && err) || (decide (k = 1) && tsEn))) ∧
      len.toNat = data.length + (if tsEn then 8 else 0) ∧ stamp.length = (if tsEn then 8 else 0) ∧
      ∀ k, k < stamp.length → stamp.getD k 0 = ts.extractLsb' (8 * k) 8

/-- R251: the due set of a fire of STREAM_TIMER in POLLING mode: ascending, exactly the active polling channels whose
divider the fire completes; every active polling channel's divider counts and no other channel changes. -/
def Obligations.DueSetPolling : Prop :=
  ∀ (s : State) (e : Trigger), s.Shaped → s.eng.amode = .polling → e.src = .timer s.cfg.streamTimer →
    ∃ due t, dueSet e s = .ok (due, t) ∧ due.Pairwise (· < ·) ∧
      (∀ c, c ∈ due ↔ c < s.cfg.nChannels ∧ (s.channel c).valid = true ∧ (s.channel c).intEn = false ∧
        (s.channel c).active = true ∧ (s.channel c).divcnt + 1 = (s.channel c).div) ∧
      (∀ c, (s.channel c).valid = true → (s.channel c).intEn = false → (s.channel c).active = true →
        t.channel c = { s.channel c with divcnt := if c ∈ due then 0 else (s.channel c).divcnt + 1 }) ∧
      (∀ c, ¬((s.channel c).valid = true ∧ (s.channel c).intEn = false ∧ (s.channel c).active = true) →
        t.channel c = s.channel c) ∧
      t = { s with ch := t.ch }

/-- R252, R202: the due set of an edge of pin p in INTERRUPT mode: ascending, exactly the active interrupt channels on
the pin whose own policy the edge qualifies for; nothing is written. -/
def Obligations.DueSetInterrupt : Prop :=
  ∀ (s : State) (e : Trigger) (p : Nat), s.DescriptorsOk → s.Shaped → s.eng.amode = .interrupt → e.src = .pin p →
    ∃ due, dueSet e s = .ok (due, s) ∧ due.Pairwise (· < ·) ∧
      (∀ c, c ∈ due ↔ c < s.cfg.nChannels ∧ (s.channel c).valid = true ∧ (s.channel c).intEn = true ∧
        (s.channel c).active = true ∧ (s.channel c).intPin.toNat = p ∧
        ((s.channel c).intPol = .onChange ∨ ((s.channel c).intPol = .risingEdge ∧ e.val = true) ∨
          ((s.channel c).intPol = .fallingEdge ∧ e.val = false)))

/-- R256: Count adds one to `produced`, modulo 2^16, and makes the channel inactive when a non-zero cap is reached.
R257, R216: AutoStop is the stop procedure exactly when the cap is not 0 and no channel of the armed mode is active. -/
def Obligations.CountThenAutoStop : Prop :=
  (∀ (s : State) (c : Nat), s.Shaped → c < s.cfg.nChannels →
    (s.count c).channel c =
      { s.channel c with
        produced := BitVec.ofNat 16 ((s.channel c).produced.toNat + 1)
        active := (s.channel c).active &&
          !(decide (s.eng.cap.toNat ≠ 0 ∧ ((s.channel c).produced.toNat + 1) % 2 ^ 16 = s.eng.cap.toNat)) } ∧
    (∀ j, j ≠ c → (s.count c).channel j = s.channel j) ∧ s.count c = { s with ch := (s.count c).ch }) ∧
  ∀ s : State, s.Shaped →
    (s.eng.cap ≠ 0 → (∀ c, c < s.cfg.nChannels → (s.channel c).valid = true → (s.channel c).mode = s.eng.amode →
      (s.channel c).active = false) → autoStop s = stopProcedure s) ∧
    ((s.eng.cap = 0 ∨ ∃ c, c < s.cfg.nChannels ∧ (s.channel c).valid = true ∧ (s.channel c).mode = s.eng.amode ∧
      (s.channel c).active = true) → autoStop s = s)

/-- R250, R256, R257, R219(a): a tick counts exactly one record, failed or not, for every due channel and none for any
other, and ends with AutoStop: it disarms the engine exactly when the cap is not 0 and no matching channel is still
active, a channel staying active until its count reaches the cap; while the engine stays armed every other channel is as
active as it was, and when it is disarmed no channel is active. -/
def Obligations.TickCountsOnePerDueChannel : Prop :=
  ∀ (s s1 t : State) (e : Trigger) (due : List Nat), s.Shaped → dueSet e s = .ok (due, s1) →
    tickSequence e s = .ok t →
    (∀ c, c < s.cfg.nChannels →
      (t.channel c).produced = if c ∈ due then (s.channel c).produced + 1 else (s.channel c).produced) ∧
    (s.eng.armed = true →
      (t.eng.armed = false ↔ s.eng.cap ≠ 0 ∧
        ∀ c, c < s.cfg.nChannels → (s.channel c).valid = true → (s.channel c).mode = s.eng.amode →
          (s.channel c).active = false ∨ (c ∈ due ∧ (s.channel c).produced + 1 = s.eng.cap)) ∧
      (t.eng.armed = true → ∀ c, c < s.cfg.nChannels →
        ((t.channel c).active = true ↔ (s.channel c).active = true ∧
          ¬(c ∈ due ∧ s.eng.cap ≠ 0 ∧ (s.channel c).produced + 1 = s.eng.cap))) ∧
      (t.eng.armed = false → ∀ d ∈ t.ch, d.active = false))

/-- R250, R253, R254, R255, R85, R90: with the invariants a tick fetches for each due channel, in ascending channel
order, and pushes one record for each. What the fetches append to BUSLOG and the records belong together channel by
channel: the entries of a channel are the reads of its blocks in order up to the first Fail, and its record carries the
channel id, ERR exactly when one of them is a Fail, the bytes they delivered followed by zeros up to the descriptor's
length (the bytes before a Fail stay: log 10), the TS flag, and the timestamp of the trigger. The ring is left as the
pushes of R90 leave it; with room for all the records none is lost and OVF is as it was. -/
def Obligations.TickAppendsDueRecords : Prop :=
  ∀ (s s1 : State) (e : Trigger) (due : List Nat) (q : List (List Byte)), s.Shaped → s.DescriptorsOk →
    s.ring.Ok s.cfg → dueSet e s = .ok (due, s1) → s.ring.view s.cfg.bufCap = some q →
    ∃ (t : State) (recs : List (List Byte)) (logs : List (List BusRd)), tickSequence e s = .ok t ∧
      due.Pairwise (· < ·) ∧ recs.length = due.length ∧ logs.length = due.length ∧
      t.busLog = s.busLog ++ logs.flatten ∧
      (∀ k c : Nat, due[k]? = some c → ∃ log r, logs[k]? = some log ∧ recs[k]? = some r ∧
        fetchLogged (s.channel c) log ∧ recordOf c (s.channel c) e.ts log r) ∧
      t.ring.view s.cfg.bufCap =
        some (recs.foldl (fun x r => viewPush s.cfg.bufCap r x.1 x.2) (q, s.ring.ovf)).1 ∧
      t.ring.ovf = (recs.foldl (fun x r => viewPush s.cfg.bufCap r x.1 x.2) (q, s.ring.ovf)).2 ∧
      (viewUsed q + (due.map fun c => 3 + blockTotal (s.channel c).blocks + tsLen (s.channel c).tsEn).sum ≤
          s.cfg.bufCap →
        t.ring.view s.cfg.bufCap = some (q ++ recs) ∧ t.ring.ovf = s.ring.ovf)

/-- R259, R293: what the handler of a trigger never writes: US, PINLVL, the bus configuration, the descriptors, the
response port and the read in progress, TRIG_OVERRUN, the command port and the schedule. TMR, BIND, TRIGQ and ENG are as
they were, unless AutoStop runs the stop procedure: then the engine is disarmed, its other fields kept (log 14), and
TMR, BIND and TRIGQ are those of its first part, from some count of free values (log 5). The traces only grow. -/
def Obligations.HandlerFrame : Prop :=
  ∀ (s t : State) (e : Trigger), runHandler e s = .next t →
    t.ch.map Channel.descriptor = s.ch.map Channel.descriptor ∧
    ((t.tmr = s.tmr ∧ t.bind = s.bind ∧ t.trigq = s.trigq ∧ t.eng = s.eng) ∨
      (s.eng.cap ≠ 0 ∧ t.eng = { s.eng with armed := false } ∧
        ∃ k, t.tmr = { s with free := k }.disarmTrigger.tmr ∧ t.bind = { s with free := k }.disarmTrigger.bind ∧
          t.trigq = { s with free := k }.disarmTrigger.trigq)) ∧
    s.evt <+: t.evt ∧ s.busLog <+: t.busLog ∧
    t = { s with
      tmr := t.tmr, bind := t.bind, ch := t.ch, eng := t.eng, ring := t.ring, trigq := t.trigq, evt := t.evt,
      busLog := t.busLog, busScript := t.busScript, free := t.free }

/-! ## Triggers -/

/-- R285, R287, R290: UsTick. US counts modulo 2^64; a RUNNING timer counts, and on reaching its timeout a periodic one
starts again from 0 and a one-shot one is STOPPED with its target kept; every other timer is as it was; the timers that
fire are latched in ascending order, stamped with the new US, as far as TRIGQ has room, and TRIG_OVERRUN is set when it
has not. What the other fields of an expired one-shot timer hold is not said (U2, log 5). -/
def Obligations.UsTickAdvancesTimers : Prop :=
  ∀ s : State, s.Shaped → s.QueueOk →
    ∃ (t : State) (fired : List Nat), agentStep .usTick s = .next t ∧ t.us.toNat = (s.us.toNat + 1) % 2 ^ 64 ∧
      fired.Pairwise (· < ·) ∧
      (∀ i, i ∈ fired ↔ i < s.cfg.nTimers ∧ (s.timer i).state = .running ∧ (s.timer i).cnt + 1 = (s.timer i).timeout) ∧
      (∀ i, (s.timer i).state ≠ .running → t.timer i = s.timer i) ∧
      (∀ i, (s.timer i).state = .running → i ∉ fired → t.timer i = { s.timer i with cnt := (s.timer i).cnt + 1 }) ∧
      (∀ i ∈ fired, (s.timer i).oneshot = false → t.timer i = { s.timer i with cnt := 0 }) ∧
      (∀ i ∈ fired, (s.timer i).oneshot = true →
        (t.timer i).state = .stopped ∧ (t.timer i).target = (s.timer i).target) ∧
      t.trigq = (s.trigq ++ fired.map (fun i => ({ src := .timer i, val := false, ts := t.us } : Trigger))).take s.cfg.trigqDepth ∧
      t.trigOverrun = (s.trigOverrun || decide (s.cfg.trigqDepth < s.trigq.length + fired.length)) ∧
      t = { s with us := t.us, tmr := t.tmr, trigq := t.trigq, trigOverrun := t.trigOverrun, free := t.free }

/-- R286, R287, R202: PinChange. A step to the level the pin has changes nothing; a change of level is followed by
PINLVL, and latched, with the level after the edge and US, when the pin's binding qualifies for it; a trigger that
finds TRIGQ full is dropped and sets TRIG_OVERRUN. -/
def Obligations.PinChangeLatchesEdges : Prop :=
  ∀ (s : State) (p : Nat) (v : Bool), s.Shaped → p < s.cfg.nPins →
    (v = s.pinLevel p → agentStep (.pinChange p v) s = .next s) ∧
    (v ≠ s.pinLevel p → ∀ wanted : Bool,
      (wanted = true ↔ (s.binding p).valid = true ∧ ((s.binding p).policy = .onChange ∨
        ((s.binding p).policy = .risingEdge ∧ v = true) ∨ ((s.binding p).policy = .fallingEdge ∧ v = false))) →
      ((s.binding p).valid = true → (s.binding p).policy ≠ .reserved) →
      ∃ t, agentStep (.pinChange p v) s = .next t ∧ t.pinLevel p = v ∧ (∀ j, j ≠ p → t.pinLevel j = s.pinLevel j) ∧
        t.trigq = s.trigq ++ (if wanted && decide (s.trigq.length < s.cfg.trigqDepth)
          then [{ src := .pin p, val := v, ts := s.us }] else []) ∧
        t.trigOverrun = (s.trigOverrun || (wanted && decide (s.cfg.trigqDepth ≤ s.trigq.length))) ∧
        t = { s with pinLvl := t.pinLvl, trigq := t.trigq, trigOverrun := t.trigOverrun })

/-- R289: Dispatch takes the oldest trigger. A timer's trigger for a host handler appends TIMER_CB, a pin's PIN_CB with
the latched level and timestamp; a trigger for the engine runs the tick sequence; a trigger whose source has no handler
has no effect. -/
def Obligations.DispatchRunsHandler : Prop :=
  ∀ (s : State) (e : Trigger) (rest : List Trigger), s.trigq = e :: rest →
    (∀ i tag, e.src = .timer i → (s.timer i).target = .ext tag →
      agentStep .dispatch s = .next { s with trigq := rest, evt := s.evt ++ [.timerCb tag i] }) ∧
    (∀ i, e.src = .timer i → (s.timer i).target = .none → agentStep .dispatch s = .next { s with trigq := rest }) ∧
    (∀ i t, e.src = .timer i → (s.timer i).target = .stream → tickSequence e { s with trigq := rest } = .ok t →
      agentStep .dispatch s = .next t) ∧
    (∀ p tag, e.src = .pin p → (s.binding p).valid = true → (s.binding p).target = .ext tag →
      agentStep .dispatch s = .next { s with trigq := rest, evt := s.evt ++ [.pinCb tag p e.val e.ts] }) ∧
    (∀ p, e.src = .pin p → (s.binding p).valid = false → agentStep .dispatch s = .next { s with trigq := rest }) ∧
    (∀ p t, e.src = .pin p → (s.binding p).valid = true → (s.binding p).target = .stream →
      tickSequence e { s with trigq := rest } = .ok t → agentStep .dispatch s = .next t)

/-! ## Reset -/

/-- R55, R330: what the reset input leaves, whatever the state before: the values R55 states. -/
def Obligations.ResetValues : Prop :=
  ∀ s : State, ∃ t, agentStep .reset s = .next t ∧ t.us = 0 ∧
    (∀ b ∈ t.i2c, b.configured = false) ∧ (∀ b ∈ t.spi, b.configured = false) ∧
    (∀ x ∈ t.tmr, x.state = .stopped ∧ x.target = .none) ∧ t.pinLvl = s.cfg.pinResetLevel ∧
    (∀ b ∈ t.bind, b.valid = false) ∧ (∀ d ∈ t.ch, d.valid = false ∧ d.active = false) ∧
    t.eng.armed = false ∧ t.ring.head = 0 ∧ t.ring.tail = 0 ∧ t.ring.used = 0 ∧ t.ring.ovf = false ∧
    t.trigq = [] ∧ t.trigOverrun = false ∧ t.rd.busy = false ∧ t.rsp = [] ∧ t.evt = [] ∧ t.busLog = [] ∧
    t.cfg = s.cfg ∧ t.engineState = .unconfigured

/-- R331, R6: the reset state meets every invariant under every choice of the parameters that R6 allows, and the
reference and small configurations are such choices. -/
def Obligations.ResetMeetsInvariants : Prop :=
  Params.ref.Ok ∧ Params.small.Ok ∧ ∀ p : Params, p.Ok → (State.resetWith p).Inv

/-! ## Invariants that every step keeps -/

/-- R5: no step changes the parameters, and every table keeps the size they give it. -/
def Obligations.StepKeepsShape : Prop :=
  ∀ s t : State, s.Shaped → step s = .next t → t.cfg = s.cfg ∧ t.Shaped

/-- R45: every stored descriptor stays within what STR_CFG checked, so that a sample fits a record. -/
def Obligations.StepKeepsDescriptors : Prop :=
  ∀ s t : State, s.Shaped → s.DescriptorsOk → step s = .next t → t.DescriptorsOk

/-- R57 I1 to I4, R38: the engine invariants are kept by every step. -/
def Obligations.StepKeepsEngine : Prop :=
  ∀ s t : State, s.Shaped → s.DescriptorsOk → s.EngineOk → step s = .next t → t.EngineOk

/-- R57 I5, R301: TRIGQ stays within its capacity; under PROMPT it never holds more than N_TIMERS triggers, TRIG_OVERRUN
stays 0, and a pending trigger carries the present US, so that every record's timestamp is US at the step that pushes it
(R255). R10, U17: one command at a time; no step leaves a whole frame waiting at the command port, nor any
word there while a STR_READ is in progress (with no other premise; log 15). -/
def Obligations.StepKeepsQueue : Prop :=
  ∀ s t : State, step s = .next t →
    (s.Shaped → s.QueueOk → s.PromptOk → t.QueueOk ∧ t.PromptOk) ∧ (s.PortOk → t.PortOk)

/-- R47, R57 I6: the ring invariants, the canonical form of the ring memory among them, are kept by every step. -/
def Obligations.StepKeepsRing : Prop :=
  ∀ s t : State, s.Shaped → s.DescriptorsOk → s.ring.Ok s.cfg → step s = .next t → t.ring.Ok t.cfg

/-- The ring memory keeps its canonical form (offsets strictly rising) in every step, with no other premise (log 3). -/
def Obligations.StepKeepsMemoryCanonical : Prop :=
  ∀ s t : State, s.ring.buf.wf → step s = .next t → t.ring.buf.wf

/-- R280, R57: nothing in the SCE halts it. In every state with the invariants the step answers a next state, never a
fault or a refusal, and the next state has the invariants. -/
def Obligations.EveryStepKeepsInvariants : Prop :=
  ∀ s : State, s.Inv → ∃ t, step s = .next t ∧ t.Inv

/-- R57 I7, R96: while the engine is armed no step but reset changes a descriptor, or the configuration of a bus that a
channel of the armed mode references. -/
def Obligations.ArmedDescriptorsFixed : Prop :=
  ∀ s t : State, s.Shaped → s.eng.armed = true → step s = .next t → (s.mustDispatch = false → s.nextAgent ≠ .reset) →
    t.ch.map Channel.descriptor = s.ch.map Channel.descriptor ∧
    ∀ d ∈ s.ch, d.valid = true → d.mode = s.eng.amode → s.busConfigured d.bus = true →
      (d.bus.kind = .i2c → t.i2cBus d.bus.idx.toNat = s.i2cBus d.bus.idx.toNat) ∧
      (d.bus.kind = .spi → t.spiBus d.bus.idx.toNat = s.spiBus d.bus.idx.toNat)

/-- R59: nothing but reset leads back to UNCONFIGURED: a channel that holds a descriptor holds one after every other
step. -/
def Obligations.NoReturnToUnconfigured : Prop :=
  ∀ (s t : State) (c : Nat), s.Shaped → step s = .next t → (s.mustDispatch = false → s.nextAgent ≠ .reset) →
    (s.channel c).valid = true → (t.channel c).valid = true

/-- R32: US changes only by UsTick, which adds one modulo 2^64, and by reset. -/
def Obligations.OnlyTickAdvancesUs : Prop :=
  ∀ s t : State, step s = .next t → t.us ≠ s.us →
    s.mustDispatch = false ∧ ((s.nextAgent = .usTick ∧ t.us = s.us + 1) ∨ (s.nextAgent = .reset ∧ t.us = 0))

/-- R48, R50: the sticky flags. A step that clears OVF is the RdEnd step of a read or the reset input; a step that clears
TRIG_OVERRUN is the reset input. -/
def Obligations.StickyFlags : Prop :=
  ∀ s t : State, step s = .next t →
    (s.ring.ovf = true → t.ring.ovf = false → s.mustDispatch = false ∧
      (s.nextAgent = .reset ∨ ((∃ words, s.nextAgent = .host words) ∧ s.rd.busy = true ∧ s.rd.left = 0))) ∧
    (s.trigOverrun = true → t.trigOverrun = false → s.mustDispatch = false ∧ s.nextAgent = .reset)

end
end

