-- ==== Sys2Proof/Laws/Encoding.lean ====
section
/-! SUPPORT. What a field of a word made of placed fields reads, and the round trips of the field codes. -/

namespace Sys2Proof

theorem field_or (x y : Word) (lo len : Nat) : field (x ||| y) lo len = field x lo len ||| field y lo len := by
  unfold field
  ext i hi
  simp

theorem field_place_same (v : BitVec n) (lo : Nat) (h : lo + n ≤ 32) : field (place v lo) lo n = v := by
  unfold field place
  ext i hi
  have h1 : lo + i < 32 := by omega
  simp [h1, hi]

theorem field_place_disjoint (v : BitVec n) (lo lo' len : Nat) (h : lo + n ≤ lo' ∨ lo' + len ≤ lo) :
    field (place v lo) lo' len = 0#len := by
  unfold field place
  ext i hi
  rcases h with h | h
  · simp
    intro _ _ _
    exact BitVec.getLsbD_of_ge _ _ (by omega)
  · simp
    intro _ _
    omega

theorem flag_or (x y : Word) (i : Nat) : flag (x ||| y) i = (flag x i || flag y i) := by
  unfold flag
  simp

theorem flag_place_ofBool (b : Bool) (i : Nat) (h : i < 32) : flag (place (BitVec.ofBool b) i) i = b := by
  unfold flag place
  simp [h]

theorem flag_place_disjoint (v : BitVec n) (lo i : Nat) (h : lo + n ≤ i ∨ i < lo) : flag (place v lo) i = false := by
  unfold flag place
  rcases h with h | h
  · simp
    intro _ _ _
    exact BitVec.getLsbD_of_ge _ _ (by omega)
  · simp
    intro _ _
    omega

@[simp] theorem Policy.ofCode_code (p : Policy) : Policy.ofCode p.code = p := by cases p <;> decide

@[simp] theorem UnitCode.ofCode_code (u : UnitCode) : UnitCode.ofCode u.code = u := by cases u <;> decide

@[simp] theorem EngineMode.ofBit_bit (m : EngineMode) : EngineMode.ofBit m.bit = m := by cases m <;> rfl

@[simp] theorem EngineMode.bit_ofBit (b : Bool) : (EngineMode.ofBit b).bit = b := by cases b <;> rfl

@[simp] theorem Opcode.ofCode?_code (op : Opcode) : Opcode.ofCode? op.code = some op := by cases op <;> decide

/-- Mask and match of every row of spec/opcode_table.json (R143). -/
def rowTable : List (Word × Word) :=
  [(0xFF0000F0, 0x01000000), (0xFF000070, 0x02000000), (0xFF00FFFF, 0x03000000), (0xFF00FF00, 0x10000000),
   (0xFF00FFFE, 0x11000000), (0xFF00FFFF, 0x12000000), (0xFF00FFFF, 0x13000000), (0xFF00FC00, 0x20000000),
   (0xFF00FFFF, 0x21000000), (0xFF000000, 0x30000000), (0xFFFD0000, 0x31010000), (0xFFFD0000, 0x31000000),
   (0xFF000000, 0x32000000), (0xFFFFFFFF, 0x40000000), (0xFFFFFFFF, 0x41000000)]

/-- Every command stands in a row of the table. -/
theorem row_mem (j : Instr) : (j.rowMask, j.rowMatch) ∈ rowTable := by
  cases j <;> repeat (first | exact List.Mem.head _ | apply List.Mem.tail)

end Sys2Proof
end

