-- ==== Sys2Proof/Laws/Memory.lean ====
section
/-! SUPPORT. The laws of the ring space: a read after a write, and the canonical form. -/

namespace Sys2Proof.Machine

theorem Memory.write_cons_lt (m : Memory) {a x : Nat} (b v : Byte) (h : a < x) :
    Memory.write ((x, b) :: m) a v = (a, v) :: (x, b) :: m := by
  simp [Memory.write, h]

theorem Memory.write_cons_eq (m : Memory) (a : Nat) (b v : Byte) :
    Memory.write ((a, b) :: m) a v = (a, v) :: m := by
  simp [Memory.write]

theorem Memory.write_cons_gt (m : Memory) {a x : Nat} (b v : Byte) (h : x < a) :
    Memory.write ((x, b) :: m) a v = (x, b) :: Memory.write m a v := by
  simp [Memory.write, Nat.not_lt.mpr h.le, h.ne]

theorem Memory.wf_cons (m : Memory) (x : Nat) (b : Byte) :
    Memory.wf ((x, b) :: m) ↔ (∀ e ∈ m, x < e.1) ∧ Memory.wf m := List.pairwise_cons

@[simp] theorem Memory.read_write_same (m : Memory) (a : Nat) (v : Byte) : (m.write a v).read a = some v := by
  induction m with
  | nil => simp [Memory.write, Memory.read]
  | cons e m ih =>
    obtain ⟨x, b⟩ := e
    rcases Nat.lt_trichotomy a x with h | rfl | h
    · simp [Memory.write_cons_lt m b v h, Memory.read]
    · simp [Memory.write_cons_eq, Memory.read]
    · simp [Memory.write_cons_gt m b v h, Memory.read, h.ne, ih]

theorem Memory.read_write_ne (m : Memory) (a a' : Nat) (v : Byte) (h : a' ≠ a) :
    (m.write a v).read a' = m.read a' := by
  induction m with
  | nil => simp [Memory.write, Memory.read, Ne.symm h]
  | cons e m ih =>
    obtain ⟨x, b⟩ := e
    rcases Nat.lt_trichotomy a x with h1 | rfl | h1
    · simp [Memory.write_cons_lt m b v h1, Memory.read, Ne.symm h]
    · simp [Memory.write_cons_eq, Memory.read, Ne.symm h]
    · rw [Memory.write_cons_gt m b v h1]
      simp only [Memory.read, ih]

/-- Every entry of a memory after a write is the written one or an entry of before. -/
theorem Memory.mem_write (m : Memory) (a : Nat) (v : Byte) (e : Host.Cell) (h : e ∈ m.write a v) :
    e = (a, v) ∨ e ∈ m := by
  induction m with
  | nil => simpa [Memory.write] using h
  | cons y m ih =>
    obtain ⟨x, b⟩ := y
    rcases Nat.lt_trichotomy a x with h1 | rfl | h1
    · rwa [Memory.write_cons_lt m b v h1, List.mem_cons] at h
    · rw [Memory.write_cons_eq, List.mem_cons] at h
      exact h.imp_right (List.mem_cons_of_mem _)
    · rw [Memory.write_cons_gt m b v h1, List.mem_cons] at h
      rcases h with h | h
      · exact .inr (h ▸ List.mem_cons_self)
      · exact (ih h).imp_right (List.mem_cons_of_mem _)

/-- A write keeps the canonical form. -/
theorem Memory.wf_write (m : Memory) (a : Nat) (v : Byte) (h : m.wf) : (m.write a v).wf := by
  induction m with
  | nil => simp [Memory.write]
  | cons y m ih =>
    obtain ⟨x, b⟩ := y
    have hx := (Memory.wf_cons m x b).mp h
    rcases Nat.lt_trichotomy a x with h1 | rfl | h1
    · rw [Memory.write_cons_lt m b v h1, Memory.wf_cons]
      refine ⟨fun e he => ?_, h⟩
      rcases List.mem_cons.mp he with rfl | he
      · exact h1
      · exact h1.trans (hx.1 e he)
    · rw [Memory.write_cons_eq, Memory.wf_cons]
      exact hx
    · rw [Memory.write_cons_gt m b v h1, Memory.wf_cons]
      refine ⟨fun e he => ?_, ih hx.2⟩
      rcases Memory.mem_write m a v e he with rfl | he
      · exact h1
      · exact hx.1 e he

/-- Writing a run of bytes keeps the canonical form. -/
theorem ringWrite_wf (cap : Nat) (bytes : List Byte) (m : Memory) (off : Nat) (h : m.wf) :
    (ringWrite cap m off bytes).wf := by
  induction bytes generalizing m off with
  | nil => exact h
  | cons b bs ih => exact ih _ _ (Memory.wf_write m _ b h)

/-- A run of bytes leaves every offset outside it alone (R84). -/
theorem ringWrite_read_outside (cap : Nat) (bytes : List Byte) (m : Memory) (off a : Nat)
    (h : ∀ k < bytes.length, a ≠ (off + k) % cap) : (ringWrite cap m off bytes).read a = m.read a := by
  induction bytes generalizing m off with
  | nil => rfl
  | cons b bs ih =>
    simp only [ringWrite]
    rw [ih, Memory.read_write_ne]
    · simpa using h 0 (by simp)
    · intro k hk
      have := h (k + 1) (by simpa using hk)
      rwa [Nat.add_assoc, Nat.add_comm 1 k]

end Sys2Proof.Machine
end

