-- ==== Sys2Proof/Laws/State.lean ====
section
/-! SUPPORT. The fields of the state after each update: one lemma per field per update, true by `rfl`, and what the
table accessors read after a table entry is written. -/

namespace Sys2Proof.Machine

section

variable (s : State) (i : Nat) (b : I2cBus)

@[simp] theorem State.setI2cBus_cfg : (s.setI2cBus i b).cfg = s.cfg := rfl
@[simp] theorem State.setI2cBus_us : (s.setI2cBus i b).us = s.us := rfl
@[simp] theorem State.setI2cBus_i2c : (s.setI2cBus i b).i2c = s.i2c.set i b := rfl
@[simp] theorem State.setI2cBus_spi : (s.setI2cBus i b).spi = s.spi := rfl
@[simp] theorem State.setI2cBus_tmr : (s.setI2cBus i b).tmr = s.tmr := rfl
@[simp] theorem State.setI2cBus_pinLvl : (s.setI2cBus i b).pinLvl = s.pinLvl := rfl
@[simp] theorem State.setI2cBus_bind : (s.setI2cBus i b).bind = s.bind := rfl
@[simp] theorem State.setI2cBus_ch : (s.setI2cBus i b).ch = s.ch := rfl
@[simp] theorem State.setI2cBus_eng : (s.setI2cBus i b).eng = s.eng := rfl
@[simp] theorem State.setI2cBus_ring : (s.setI2cBus i b).ring = s.ring := rfl
@[simp] theorem State.setI2cBus_trigq : (s.setI2cBus i b).trigq = s.trigq := rfl
@[simp] theorem State.setI2cBus_trigOverrun : (s.setI2cBus i b).trigOverrun = s.trigOverrun := rfl
@[simp] theorem State.setI2cBus_rd : (s.setI2cBus i b).rd = s.rd := rfl
@[simp] theorem State.setI2cBus_rsp : (s.setI2cBus i b).rsp = s.rsp := rfl
@[simp] theorem State.setI2cBus_evt : (s.setI2cBus i b).evt = s.evt := rfl
@[simp] theorem State.setI2cBus_busLog : (s.setI2cBus i b).busLog = s.busLog := rfl
@[simp] theorem State.setI2cBus_cmdPort : (s.setI2cBus i b).cmdPort = s.cmdPort := rfl
@[simp] theorem State.setI2cBus_sched : (s.setI2cBus i b).sched = s.sched := rfl
@[simp] theorem State.setI2cBus_busScript : (s.setI2cBus i b).busScript = s.busScript := rfl
@[simp] theorem State.setI2cBus_drawn : (s.setI2cBus i b).drawn = s.drawn := rfl
@[simp] theorem State.setI2cBus_free : (s.setI2cBus i b).free = s.free := rfl

end

section

variable (s : State) (i : Nat) (b : SpiBus)

@[simp] theorem State.setSpiBus_cfg : (s.setSpiBus i b).cfg = s.cfg := rfl
@[simp] theorem State.setSpiBus_us : (s.setSpiBus i b).us = s.us := rfl
@[simp] theorem State.setSpiBus_i2c : (s.setSpiBus i b).i2c = s.i2c := rfl
@[simp] theorem State.setSpiBus_spi : (s.setSpiBus i b).spi = s.spi.set i b := rfl
@[simp] theorem State.setSpiBus_tmr : (s.setSpiBus i b).tmr = s.tmr := rfl
@[simp] theorem State.setSpiBus_pinLvl : (s.setSpiBus i b).pinLvl = s.pinLvl := rfl
@[simp] theorem State.setSpiBus_bind : (s.setSpiBus i b).bind = s.bind := rfl
@[simp] theorem State.setSpiBus_ch : (s.setSpiBus i b).ch = s.ch := rfl
@[simp] theorem State.setSpiBus_eng : (s.setSpiBus i b).eng = s.eng := rfl
@[simp] theorem State.setSpiBus_ring : (s.setSpiBus i b).ring = s.ring := rfl
@[simp] theorem State.setSpiBus_trigq : (s.setSpiBus i b).trigq = s.trigq := rfl
@[simp] theorem State.setSpiBus_trigOverrun : (s.setSpiBus i b).trigOverrun = s.trigOverrun := rfl
@[simp] theorem State.setSpiBus_rd : (s.setSpiBus i b).rd = s.rd := rfl
@[simp] theorem State.setSpiBus_rsp : (s.setSpiBus i b).rsp = s.rsp := rfl
@[simp] theorem State.setSpiBus_evt : (s.setSpiBus i b).evt = s.evt := rfl
@[simp] theorem State.setSpiBus_busLog : (s.setSpiBus i b).busLog = s.busLog := rfl
@[simp] theorem State.setSpiBus_cmdPort : (s.setSpiBus i b).cmdPort = s.cmdPort := rfl
@[simp] theorem State.setSpiBus_sched : (s.setSpiBus i b).sched = s.sched := rfl
@[simp] theorem State.setSpiBus_busScript : (s.setSpiBus i b).busScript = s.busScript := rfl
@[simp] theorem State.setSpiBus_drawn : (s.setSpiBus i b).drawn = s.drawn := rfl
@[simp] theorem State.setSpiBus_free : (s.setSpiBus i b).free = s.free := rfl

end

section

variable (s : State) (i : Nat) (t : Timer)

@[simp] theorem State.setTimer_cfg : (s.setTimer i t).cfg = s.cfg := rfl
@[simp] theorem State.setTimer_us : (s.setTimer i t).us = s.us := rfl
@[simp] theorem State.setTimer_i2c : (s.setTimer i t).i2c = s.i2c := rfl
@[simp] theorem State.setTimer_spi : (s.setTimer i t).spi = s.spi := rfl
@[simp] theorem State.setTimer_tmr : (s.setTimer i t).tmr = s.tmr.set i t := rfl
@[simp] theorem State.setTimer_pinLvl : (s.setTimer i t).pinLvl = s.pinLvl := rfl
@[simp] theorem State.setTimer_bind : (s.setTimer i t).bind = s.bind := rfl
@[simp] theorem State.setTimer_ch : (s.setTimer i t).ch = s.ch := rfl
@[simp] theorem State.setTimer_eng : (s.setTimer i t).eng = s.eng := rfl
@[simp] theorem State.setTimer_ring : (s.setTimer i t).ring = s.ring := rfl
@[simp] theorem State.setTimer_trigq : (s.setTimer i t).trigq = s.trigq := rfl
@[simp] theorem State.setTimer_trigOverrun : (s.setTimer i t).trigOverrun = s.trigOverrun := rfl
@[simp] theorem State.setTimer_rd : (s.setTimer i t).rd = s.rd := rfl
@[simp] theorem State.setTimer_rsp : (s.setTimer i t).rsp = s.rsp := rfl
@[simp] theorem State.setTimer_evt : (s.setTimer i t).evt = s.evt := rfl
@[simp] theorem State.setTimer_busLog : (s.setTimer i t).busLog = s.busLog := rfl
@[simp] theorem State.setTimer_cmdPort : (s.setTimer i t).cmdPort = s.cmdPort := rfl
@[simp] theorem State.setTimer_sched : (s.setTimer i t).sched = s.sched := rfl
@[simp] theorem State.setTimer_busScript : (s.setTimer i t).busScript = s.busScript := rfl
@[simp] theorem State.setTimer_drawn : (s.setTimer i t).drawn = s.drawn := rfl
@[simp] theorem State.setTimer_free : (s.setTimer i t).free = s.free := rfl

end

section

variable (s : State) (p : Nat) (v : Bool)

@[simp] theorem State.setPinLevel_cfg : (s.setPinLevel p v).cfg = s.cfg := rfl
@[simp] theorem State.setPinLevel_us : (s.setPinLevel p v).us = s.us := rfl
@[simp] theorem State.setPinLevel_i2c : (s.setPinLevel p v).i2c = s.i2c := rfl
@[simp] theorem State.setPinLevel_spi : (s.setPinLevel p v).spi = s.spi := rfl
@[simp] theorem State.setPinLevel_tmr : (s.setPinLevel p v).tmr = s.tmr := rfl
@[simp] theorem State.setPinLevel_pinLvl : (s.setPinLevel p v).pinLvl = s.pinLvl.set p v := rfl
@[simp] theorem State.setPinLevel_bind : (s.setPinLevel p v).bind = s.bind := rfl
@[simp] theorem State.setPinLevel_ch : (s.setPinLevel p v).ch = s.ch := rfl
@[simp] theorem State.setPinLevel_eng : (s.setPinLevel p v).eng = s.eng := rfl
@[simp] theorem State.setPinLevel_ring : (s.setPinLevel p v).ring = s.ring := rfl
@[simp] theorem State.setPinLevel_trigq : (s.setPinLevel p v).trigq = s.trigq := rfl
@[simp] theorem State.setPinLevel_trigOverrun : (s.setPinLevel p v).trigOverrun = s.trigOverrun := rfl
@[simp] theorem State.setPinLevel_rd : (s.setPinLevel p v).rd = s.rd := rfl
@[simp] theorem State.setPinLevel_rsp : (s.setPinLevel p v).rsp = s.rsp := rfl
@[simp] theorem State.setPinLevel_evt : (s.setPinLevel p v).evt = s.evt := rfl
@[simp] theorem State.setPinLevel_busLog : (s.setPinLevel p v).busLog = s.busLog := rfl
@[simp] theorem State.setPinLevel_cmdPort : (s.setPinLevel p v).cmdPort = s.cmdPort := rfl
@[simp] theorem State.setPinLevel_sched : (s.setPinLevel p v).sched = s.sched := rfl
@[simp] theorem State.setPinLevel_busScript : (s.setPinLevel p v).busScript = s.busScript := rfl
@[simp] theorem State.setPinLevel_drawn : (s.setPinLevel p v).drawn = s.drawn := rfl
@[simp] theorem State.setPinLevel_free : (s.setPinLevel p v).free = s.free := rfl

end

section

variable (s : State) (p : Nat) (b : Binding)

@[simp] theorem State.setBinding_cfg : (s.setBinding p b).cfg = s.cfg := rfl
@[simp] theorem State.setBinding_us : (s.setBinding p b).us = s.us := rfl
@[simp] theorem State.setBinding_i2c : (s.setBinding p b).i2c = s.i2c := rfl
@[simp] theorem State.setBinding_spi : (s.setBinding p b).spi = s.spi := rfl
@[simp] theorem State.setBinding_tmr : (s.setBinding p b).tmr = s.tmr := rfl
@[simp] theorem State.setBinding_pinLvl : (s.setBinding p b).pinLvl = s.pinLvl := rfl
@[simp] theorem State.setBinding_bind : (s.setBinding p b).bind = s.bind.set p b := rfl
@[simp] theorem State.setBinding_ch : (s.setBinding p b).ch = s.ch := rfl
@[simp] theorem State.setBinding_eng : (s.setBinding p b).eng = s.eng := rfl
@[simp] theorem State.setBinding_ring : (s.setBinding p b).ring = s.ring := rfl
@[simp] theorem State.setBinding_trigq : (s.setBinding p b).trigq = s.trigq := rfl
@[simp] theorem State.setBinding_trigOverrun : (s.setBinding p b).trigOverrun = s.trigOverrun := rfl
@[simp] theorem State.setBinding_rd : (s.setBinding p b).rd = s.rd := rfl
@[simp] theorem State.setBinding_rsp : (s.setBinding p b).rsp = s.rsp := rfl
@[simp] theorem State.setBinding_evt : (s.setBinding p b).evt = s.evt := rfl
@[simp] theorem State.setBinding_busLog : (s.setBinding p b).busLog = s.busLog := rfl
@[simp] theorem State.setBinding_cmdPort : (s.setBinding p b).cmdPort = s.cmdPort := rfl
@[simp] theorem State.setBinding_sched : (s.setBinding p b).sched = s.sched := rfl
@[simp] theorem State.setBinding_busScript : (s.setBinding p b).busScript = s.busScript := rfl
@[simp] theorem State.setBinding_drawn : (s.setBinding p b).drawn = s.drawn := rfl
@[simp] theorem State.setBinding_free : (s.setBinding p b).free = s.free := rfl

end

section

variable (s : State) (c : Nat) (d : Channel)

@[simp] theorem State.setChannel_cfg : (s.setChannel c d).cfg = s.cfg := rfl
@[simp] theorem State.setChannel_us : (s.setChannel c d).us = s.us := rfl
@[simp] theorem State.setChannel_i2c : (s.setChannel c d).i2c = s.i2c := rfl
@[simp] theorem State.setChannel_spi : (s.setChannel c d).spi = s.spi := rfl
@[simp] theorem State.setChannel_tmr : (s.setChannel c d).tmr = s.tmr := rfl
@[simp] theorem State.setChannel_pinLvl : (s.setChannel c d).pinLvl = s.pinLvl := rfl
@[simp] theorem State.setChannel_bind : (s.setChannel c d).bind = s.bind := rfl
@[simp] theorem State.setChannel_ch : (s.setChannel c d).ch = s.ch.set c d := rfl
@[simp] theorem State.setChannel_eng : (s.setChannel c d).eng = s.eng := rfl
@[simp] theorem State.setChannel_ring : (s.setChannel c d).ring = s.ring := rfl
@[simp] theorem State.setChannel_trigq : (s.setChannel c d).trigq = s.trigq := rfl
@[simp] theorem State.setChannel_trigOverrun : (s.setChannel c d).trigOverrun = s.trigOverrun := rfl
@[simp] theorem State.setChannel_rd : (s.setChannel c d).rd = s.rd := rfl
@[simp] theorem State.setChannel_rsp : (s.setChannel c d).rsp = s.rsp := rfl
@[simp] theorem State.setChannel_evt : (s.setChannel c d).evt = s.evt := rfl
@[simp] theorem State.setChannel_busLog : (s.setChannel c d).busLog = s.busLog := rfl
@[simp] theorem State.setChannel_cmdPort : (s.setChannel c d).cmdPort = s.cmdPort := rfl
@[simp] theorem State.setChannel_sched : (s.setChannel c d).sched = s.sched := rfl
@[simp] theorem State.setChannel_busScript : (s.setChannel c d).busScript = s.busScript := rfl
@[simp] theorem State.setChannel_drawn : (s.setChannel c d).drawn = s.drawn := rfl
@[simp] theorem State.setChannel_free : (s.setChannel c d).free = s.free := rfl

end

section

variable (s : State) (r : ReadState)

@[simp] theorem State.setRead_cfg : (s.setRead r).cfg = s.cfg := rfl
@[simp] theorem State.setRead_us : (s.setRead r).us = s.us := rfl
@[simp] theorem State.setRead_i2c : (s.setRead r).i2c = s.i2c := rfl
@[simp] theorem State.setRead_spi : (s.setRead r).spi = s.spi := rfl
@[simp] theorem State.setRead_tmr : (s.setRead r).tmr = s.tmr := rfl
@[simp] theorem State.setRead_pinLvl : (s.setRead r).pinLvl = s.pinLvl := rfl
@[simp] theorem State.setRead_bind : (s.setRead r).bind = s.bind := rfl
@[simp] theorem State.setRead_ch : (s.setRead r).ch = s.ch := rfl
@[simp] theorem State.setRead_eng : (s.setRead r).eng = s.eng := rfl
@[simp] theorem State.setRead_ring : (s.setRead r).ring = s.ring := rfl
@[simp] theorem State.setRead_trigq : (s.setRead r).trigq = s.trigq := rfl
@[simp] theorem State.setRead_trigOverrun : (s.setRead r).trigOverrun = s.trigOverrun := rfl
@[simp] theorem State.setRead_rd : (s.setRead r).rd = r := rfl
@[simp] theorem State.setRead_rsp : (s.setRead r).rsp = s.rsp := rfl
@[simp] theorem State.setRead_evt : (s.setRead r).evt = s.evt := rfl
@[simp] theorem State.setRead_busLog : (s.setRead r).busLog = s.busLog := rfl
@[simp] theorem State.setRead_cmdPort : (s.setRead r).cmdPort = s.cmdPort := rfl
@[simp] theorem State.setRead_sched : (s.setRead r).sched = s.sched := rfl
@[simp] theorem State.setRead_busScript : (s.setRead r).busScript = s.busScript := rfl
@[simp] theorem State.setRead_drawn : (s.setRead r).drawn = s.drawn := rfl
@[simp] theorem State.setRead_free : (s.setRead r).free = s.free := rfl

end

section

variable (s : State) (e : Engine)

@[simp] theorem State.setEngine_cfg : (s.setEngine e).cfg = s.cfg := rfl
@[simp] theorem State.setEngine_us : (s.setEngine e).us = s.us := rfl
@[simp] theorem State.setEngine_i2c : (s.setEngine e).i2c = s.i2c := rfl
@[simp] theorem State.setEngine_spi : (s.setEngine e).spi = s.spi := rfl
@[simp] theorem State.setEngine_tmr : (s.setEngine e).tmr = s.tmr := rfl
@[simp] theorem State.setEngine_pinLvl : (s.setEngine e).pinLvl = s.pinLvl := rfl
@[simp] theorem State.setEngine_bind : (s.setEngine e).bind = s.bind := rfl
@[simp] theorem State.setEngine_ch : (s.setEngine e).ch = s.ch := rfl
@[simp] theorem State.setEngine_eng : (s.setEngine e).eng = e := rfl
@[simp] theorem State.setEngine_ring : (s.setEngine e).ring = s.ring := rfl
@[simp] theorem State.setEngine_trigq : (s.setEngine e).trigq = s.trigq := rfl
@[simp] theorem State.setEngine_trigOverrun : (s.setEngine e).trigOverrun = s.trigOverrun := rfl
@[simp] theorem State.setEngine_rd : (s.setEngine e).rd = s.rd := rfl
@[simp] theorem State.setEngine_rsp : (s.setEngine e).rsp = s.rsp := rfl
@[simp] theorem State.setEngine_evt : (s.setEngine e).evt = s.evt := rfl
@[simp] theorem State.setEngine_busLog : (s.setEngine e).busLog = s.busLog := rfl
@[simp] theorem State.setEngine_cmdPort : (s.setEngine e).cmdPort = s.cmdPort := rfl
@[simp] theorem State.setEngine_sched : (s.setEngine e).sched = s.sched := rfl
@[simp] theorem State.setEngine_busScript : (s.setEngine e).busScript = s.busScript := rfl
@[simp] theorem State.setEngine_drawn : (s.setEngine e).drawn = s.drawn := rfl
@[simp] theorem State.setEngine_free : (s.setEngine e).free = s.free := rfl

end

section

variable (s : State) (r : Ring)

@[simp] theorem State.setRing_cfg : (s.setRing r).cfg = s.cfg := rfl
@[simp] theorem State.setRing_us : (s.setRing r).us = s.us := rfl
@[simp] theorem State.setRing_i2c : (s.setRing r).i2c = s.i2c := rfl
@[simp] theorem State.setRing_spi : (s.setRing r).spi = s.spi := rfl
@[simp] theorem State.setRing_tmr : (s.setRing r).tmr = s.tmr := rfl
@[simp] theorem State.setRing_pinLvl : (s.setRing r).pinLvl = s.pinLvl := rfl
@[simp] theorem State.setRing_bind : (s.setRing r).bind = s.bind := rfl
@[simp] theorem State.setRing_ch : (s.setRing r).ch = s.ch := rfl
@[simp] theorem State.setRing_eng : (s.setRing r).eng = s.eng := rfl
@[simp] theorem State.setRing_ring : (s.setRing r).ring = r := rfl
@[simp] theorem State.setRing_trigq : (s.setRing r).trigq = s.trigq := rfl
@[simp] theorem State.setRing_trigOverrun : (s.setRing r).trigOverrun = s.trigOverrun := rfl
@[simp] theorem State.setRing_rd : (s.setRing r).rd = s.rd := rfl
@[simp] theorem State.setRing_rsp : (s.setRing r).rsp = s.rsp := rfl
@[simp] theorem State.setRing_evt : (s.setRing r).evt = s.evt := rfl
@[simp] theorem State.setRing_busLog : (s.setRing r).busLog = s.busLog := rfl
@[simp] theorem State.setRing_cmdPort : (s.setRing r).cmdPort = s.cmdPort := rfl
@[simp] theorem State.setRing_sched : (s.setRing r).sched = s.sched := rfl
@[simp] theorem State.setRing_busScript : (s.setRing r).busScript = s.busScript := rfl
@[simp] theorem State.setRing_drawn : (s.setRing r).drawn = s.drawn := rfl
@[simp] theorem State.setRing_free : (s.setRing r).free = s.free := rfl

end

section

variable (s : State)

@[simp] theorem State.drawFree_cfg : s.drawFree.cfg = s.cfg := rfl
@[simp] theorem State.drawFree_us : s.drawFree.us = s.us := rfl
@[simp] theorem State.drawFree_i2c : s.drawFree.i2c = s.i2c := rfl
@[simp] theorem State.drawFree_spi : s.drawFree.spi = s.spi := rfl
@[simp] theorem State.drawFree_tmr : s.drawFree.tmr = s.tmr := rfl
@[simp] theorem State.drawFree_pinLvl : s.drawFree.pinLvl = s.pinLvl := rfl
@[simp] theorem State.drawFree_bind : s.drawFree.bind = s.bind := rfl
@[simp] theorem State.drawFree_ch : s.drawFree.ch = s.ch := rfl
@[simp] theorem State.drawFree_eng : s.drawFree.eng = s.eng := rfl
@[simp] theorem State.drawFree_ring : s.drawFree.ring = s.ring := rfl
@[simp] theorem State.drawFree_trigq : s.drawFree.trigq = s.trigq := rfl
@[simp] theorem State.drawFree_trigOverrun : s.drawFree.trigOverrun = s.trigOverrun := rfl
@[simp] theorem State.drawFree_rd : s.drawFree.rd = s.rd := rfl
@[simp] theorem State.drawFree_rsp : s.drawFree.rsp = s.rsp := rfl
@[simp] theorem State.drawFree_evt : s.drawFree.evt = s.evt := rfl
@[simp] theorem State.drawFree_busLog : s.drawFree.busLog = s.busLog := rfl
@[simp] theorem State.drawFree_cmdPort : s.drawFree.cmdPort = s.cmdPort := rfl
@[simp] theorem State.drawFree_sched : s.drawFree.sched = s.sched := rfl
@[simp] theorem State.drawFree_busScript : s.drawFree.busScript = s.busScript := rfl
@[simp] theorem State.drawFree_drawn : s.drawFree.drawn = s.drawn := rfl
@[simp] theorem State.drawFree_free : s.drawFree.free = s.free + 1 := rfl

end

section

variable (s : State) (opc : Byte) (st : Status) (n : BitVec 16) (p : List Word)

@[simp] theorem State.respond_cfg : (s.respond opc st n p).cfg = s.cfg := rfl
@[simp] theorem State.respond_us : (s.respond opc st n p).us = s.us := rfl
@[simp] theorem State.respond_i2c : (s.respond opc st n p).i2c = s.i2c := rfl
@[simp] theorem State.respond_spi : (s.respond opc st n p).spi = s.spi := rfl
@[simp] theorem State.respond_tmr : (s.respond opc st n p).tmr = s.tmr := rfl
@[simp] theorem State.respond_pinLvl : (s.respond opc st n p).pinLvl = s.pinLvl := rfl
@[simp] theorem State.respond_bind : (s.respond opc st n p).bind = s.bind := rfl
@[simp] theorem State.respond_ch : (s.respond opc st n p).ch = s.ch := rfl
@[simp] theorem State.respond_eng : (s.respond opc st n p).eng = s.eng := rfl
@[simp] theorem State.respond_ring : (s.respond opc st n p).ring = s.ring := rfl
@[simp] theorem State.respond_trigq : (s.respond opc st n p).trigq = s.trigq := rfl
@[simp] theorem State.respond_trigOverrun : (s.respond opc st n p).trigOverrun = s.trigOverrun := rfl
@[simp] theorem State.respond_rd : (s.respond opc st n p).rd = s.rd := rfl
@[simp] theorem State.respond_rsp : (s.respond opc st n p).rsp = s.rsp ++ [responseHead opc (s.cfg.statusCode.code st) n :: p] := rfl
@[simp] theorem State.respond_evt : (s.respond opc st n p).evt = s.evt := rfl
@[simp] theorem State.respond_busLog : (s.respond opc st n p).busLog = s.busLog := rfl
@[simp] theorem State.respond_cmdPort : (s.respond opc st n p).cmdPort = s.cmdPort := rfl
@[simp] theorem State.respond_sched : (s.respond opc st n p).sched = s.sched := rfl
@[simp] theorem State.respond_busScript : (s.respond opc st n p).busScript = s.busScript := rfl
@[simp] theorem State.respond_drawn : (s.respond opc st n p).drawn = s.drawn := rfl
@[simp] theorem State.respond_free : (s.respond opc st n p).free = s.free := rfl

end

section

variable (s : State) (e : Event)

@[simp] theorem State.emit_cfg : (s.emit e).cfg = s.cfg := rfl
@[simp] theorem State.emit_us : (s.emit e).us = s.us := rfl
@[simp] theorem State.emit_i2c : (s.emit e).i2c = s.i2c := rfl
@[simp] theorem State.emit_spi : (s.emit e).spi = s.spi := rfl
@[simp] theorem State.emit_tmr : (s.emit e).tmr = s.tmr := rfl
@[simp] theorem State.emit_pinLvl : (s.emit e).pinLvl = s.pinLvl := rfl
@[simp] theorem State.emit_bind : (s.emit e).bind = s.bind := rfl
@[simp] theorem State.emit_ch : (s.emit e).ch = s.ch := rfl
@[simp] theorem State.emit_eng : (s.emit e).eng = s.eng := rfl
@[simp] theorem State.emit_ring : (s.emit e).ring = s.ring := rfl
@[simp] theorem State.emit_trigq : (s.emit e).trigq = s.trigq := rfl
@[simp] theorem State.emit_trigOverrun : (s.emit e).trigOverrun = s.trigOverrun := rfl
@[simp] theorem State.emit_rd : (s.emit e).rd = s.rd := rfl
@[simp] theorem State.emit_rsp : (s.emit e).rsp = s.rsp := rfl
@[simp] theorem State.emit_evt : (s.emit e).evt = s.evt ++ [e] := rfl
@[simp] theorem State.emit_busLog : (s.emit e).busLog = s.busLog := rfl
@[simp] theorem State.emit_cmdPort : (s.emit e).cmdPort = s.cmdPort := rfl
@[simp] theorem State.emit_sched : (s.emit e).sched = s.sched := rfl
@[simp] theorem State.emit_busScript : (s.emit e).busScript = s.busScript := rfl
@[simp] theorem State.emit_drawn : (s.emit e).drawn = s.drawn := rfl
@[simp] theorem State.emit_free : (s.emit e).free = s.free := rfl

end

section

variable (s : State) (src : TrigSource)

@[simp] theorem State.purge_cfg : (s.purge src).cfg = s.cfg := rfl
@[simp] theorem State.purge_us : (s.purge src).us = s.us := rfl
@[simp] theorem State.purge_i2c : (s.purge src).i2c = s.i2c := rfl
@[simp] theorem State.purge_spi : (s.purge src).spi = s.spi := rfl
@[simp] theorem State.purge_tmr : (s.purge src).tmr = s.tmr := rfl
@[simp] theorem State.purge_pinLvl : (s.purge src).pinLvl = s.pinLvl := rfl
@[simp] theorem State.purge_bind : (s.purge src).bind = s.bind := rfl
@[simp] theorem State.purge_ch : (s.purge src).ch = s.ch := rfl
@[simp] theorem State.purge_eng : (s.purge src).eng = s.eng := rfl
@[simp] theorem State.purge_ring : (s.purge src).ring = s.ring := rfl
@[simp] theorem State.purge_trigq : (s.purge src).trigq = purgeSources [src] s.trigq := rfl
@[simp] theorem State.purge_trigOverrun : (s.purge src).trigOverrun = s.trigOverrun := rfl
@[simp] theorem State.purge_rd : (s.purge src).rd = s.rd := rfl
@[simp] theorem State.purge_rsp : (s.purge src).rsp = s.rsp := rfl
@[simp] theorem State.purge_evt : (s.purge src).evt = s.evt := rfl
@[simp] theorem State.purge_busLog : (s.purge src).busLog = s.busLog := rfl
@[simp] theorem State.purge_cmdPort : (s.purge src).cmdPort = s.cmdPort := rfl
@[simp] theorem State.purge_sched : (s.purge src).sched = s.sched := rfl
@[simp] theorem State.purge_busScript : (s.purge src).busScript = s.busScript := rfl
@[simp] theorem State.purge_drawn : (s.purge src).drawn = s.drawn := rfl
@[simp] theorem State.purge_free : (s.purge src).free = s.free := rfl

end

theorem State.timer_setTimer_same (s : State) (i : Nat) (x : Timer) (h : i < s.tmr.length) :
    (s.setTimer i x).timer i = x := by
  simp [State.timer, State.setTimer, List.getD_eq_getElem?_getD, h]

theorem State.timer_setTimer_ne (s : State) (i j : Nat) (x : Timer) (h : j ≠ i) :
    (s.setTimer i x).timer j = s.timer j := by
  simp [State.timer, State.setTimer, List.getD_eq_getElem?_getD, Ne.symm h]

theorem State.binding_setBinding_same (s : State) (i : Nat) (x : Binding) (h : i < s.bind.length) :
    (s.setBinding i x).binding i = x := by
  simp [State.binding, State.setBinding, List.getD_eq_getElem?_getD, h]

theorem State.binding_setBinding_ne (s : State) (i j : Nat) (x : Binding) (h : j ≠ i) :
    (s.setBinding i x).binding j = s.binding j := by
  simp [State.binding, State.setBinding, List.getD_eq_getElem?_getD, Ne.symm h]

theorem State.channel_setChannel_same (s : State) (i : Nat) (x : Channel) (h : i < s.ch.length) :
    (s.setChannel i x).channel i = x := by
  simp [State.channel, State.setChannel, List.getD_eq_getElem?_getD, h]

theorem State.channel_setChannel_ne (s : State) (i j : Nat) (x : Channel) (h : j ≠ i) :
    (s.setChannel i x).channel j = s.channel j := by
  simp [State.channel, State.setChannel, List.getD_eq_getElem?_getD, Ne.symm h]

theorem State.i2cBus_setI2cBus_same (s : State) (i : Nat) (x : I2cBus) (h : i < s.i2c.length) :
    (s.setI2cBus i x).i2cBus i = x := by
  simp [State.i2cBus, State.setI2cBus, List.getD_eq_getElem?_getD, h]

theorem State.i2cBus_setI2cBus_ne (s : State) (i j : Nat) (x : I2cBus) (h : j ≠ i) :
    (s.setI2cBus i x).i2cBus j = s.i2cBus j := by
  simp [State.i2cBus, State.setI2cBus, List.getD_eq_getElem?_getD, Ne.symm h]

theorem State.spiBus_setSpiBus_same (s : State) (i : Nat) (x : SpiBus) (h : i < s.spi.length) :
    (s.setSpiBus i x).spiBus i = x := by
  simp [State.spiBus, State.setSpiBus, List.getD_eq_getElem?_getD, h]

theorem State.spiBus_setSpiBus_ne (s : State) (i j : Nat) (x : SpiBus) (h : j ≠ i) :
    (s.setSpiBus i x).spiBus j = s.spiBus j := by
  simp [State.spiBus, State.setSpiBus, List.getD_eq_getElem?_getD, Ne.symm h]

theorem State.pinLevel_setPinLevel_same (s : State) (i : Nat) (x : Bool) (h : i < s.pinLvl.length) :
    (s.setPinLevel i x).pinLevel i = x := by
  simp [State.pinLevel, State.setPinLevel, List.getD_eq_getElem?_getD, h]

theorem State.pinLevel_setPinLevel_ne (s : State) (i j : Nat) (x : Bool) (h : j ≠ i) :
    (s.setPinLevel i x).pinLevel j = s.pinLevel j := by
  simp [State.pinLevel, State.setPinLevel, List.getD_eq_getElem?_getD, Ne.symm h]

@[simp] theorem State.timer_setI2cBus (s : State) (k : Nat) (b : I2cBus) (j : Nat) : (s.setI2cBus k b).timer j = s.timer j := rfl
@[simp] theorem State.timer_setSpiBus (s : State) (k : Nat) (b : SpiBus) (j : Nat) : (s.setSpiBus k b).timer j = s.timer j := rfl
@[simp] theorem State.timer_setPinLevel (s : State) (k : Nat) (v : Bool) (j : Nat) : (s.setPinLevel k v).timer j = s.timer j := rfl
@[simp] theorem State.timer_setBinding (s : State) (k : Nat) (b : Binding) (j : Nat) : (s.setBinding k b).timer j = s.timer j := rfl
@[simp] theorem State.timer_setChannel (s : State) (k : Nat) (d : Channel) (j : Nat) : (s.setChannel k d).timer j = s.timer j := rfl
@[simp] theorem State.timer_setRead (s : State) (r : ReadState) (j : Nat) : (s.setRead r).timer j = s.timer j := rfl
@[simp] theorem State.timer_setEngine (s : State) (e : Engine) (j : Nat) : (s.setEngine e).timer j = s.timer j := rfl
@[simp] theorem State.timer_setRing (s : State) (r : Ring) (j : Nat) : (s.setRing r).timer j = s.timer j := rfl
@[simp] theorem State.timer_drawFree (s : State) (j : Nat) : s.drawFree.timer j = s.timer j := rfl
@[simp] theorem State.timer_respond (s : State) (opc : Byte) (st : Status) (n : BitVec 16) (p : List Word) (j : Nat) : (s.respond opc st n p).timer j = s.timer j := rfl
@[simp] theorem State.timer_emit (s : State) (e : Event) (j : Nat) : (s.emit e).timer j = s.timer j := rfl
@[simp] theorem State.timer_purge (s : State) (src : TrigSource) (j : Nat) : (s.purge src).timer j = s.timer j := rfl

@[simp] theorem State.binding_setI2cBus (s : State) (k : Nat) (b : I2cBus) (j : Nat) : (s.setI2cBus k b).binding j = s.binding j := rfl
@[simp] theorem State.binding_setSpiBus (s : State) (k : Nat) (b : SpiBus) (j : Nat) : (s.setSpiBus k b).binding j = s.binding j := rfl
@[simp] theorem State.binding_setTimer (s : State) (k : Nat) (t : Timer) (j : Nat) : (s.setTimer k t).binding j = s.binding j := rfl
@[simp] theorem State.binding_setPinLevel (s : State) (k : Nat) (v : Bool) (j : Nat) : (s.setPinLevel k v).binding j = s.binding j := rfl
@[simp] theorem State.binding_setChannel (s : State) (k : Nat) (d : Channel) (j : Nat) : (s.setChannel k d).binding j = s.binding j := rfl
@[simp] theorem State.binding_setRead (s : State) (r : ReadState) (j : Nat) : (s.setRead r).binding j = s.binding j := rfl
@[simp] theorem State.binding_setEngine (s : State) (e : Engine) (j : Nat) : (s.setEngine e).binding j = s.binding j := rfl
@[simp] theorem State.binding_setRing (s : State) (r : Ring) (j : Nat) : (s.setRing r).binding j = s.binding j := rfl
@[simp] theorem State.binding_drawFree (s : State) (j : Nat) : s.drawFree.binding j = s.binding j := rfl
@[simp] theorem State.binding_respond (s : State) (opc : Byte) (st : Status) (n : BitVec 16) (p : List Word) (j : Nat) : (s.respond opc st n p).binding j = s.binding j := rfl
@[simp] theorem State.binding_emit (s : State) (e : Event) (j : Nat) : (s.emit e).binding j = s.binding j := rfl
@[simp] theorem State.binding_purge (s : State) (src : TrigSource) (j : Nat) : (s.purge src).binding j = s.binding j := rfl

@[simp] theorem State.channel_setI2cBus (s : State) (k : Nat) (b : I2cBus) (j : Nat) : (s.setI2cBus k b).channel j = s.channel j := rfl
@[simp] theorem State.channel_setSpiBus (s : State) (k : Nat) (b : SpiBus) (j : Nat) : (s.setSpiBus k b).channel j = s.channel j := rfl
@[simp] theorem State.channel_setTimer (s : State) (k : Nat) (t : Timer) (j : Nat) : (s.setTimer k t).channel j = s.channel j := rfl
@[simp] theorem State.channel_setPinLevel (s : State) (k : Nat) (v : Bool) (j : Nat) : (s.setPinLevel k v).channel j = s.channel j := rfl
@[simp] theorem State.channel_setBinding (s : State) (k : Nat) (b : Binding) (j : Nat) : (s.setBinding k b).channel j = s.channel j := rfl
@[simp] theorem State.channel_setRead (s : State) (r : ReadState) (j : Nat) : (s.setRead r).channel j = s.channel j := rfl
@[simp] theorem State.channel_setEngine (s : State) (e : Engine) (j : Nat) : (s.setEngine e).channel j = s.channel j := rfl
@[simp] theorem State.channel_setRing (s : State) (r : Ring) (j : Nat) : (s.setRing r).channel j = s.channel j := rfl
@[simp] theorem State.channel_drawFree (s : State) (j : Nat) : s.drawFree.channel j = s.channel j := rfl
@[simp] theorem State.channel_respond (s : State) (opc : Byte) (st : Status) (n : BitVec 16) (p : List Word) (j : Nat) : (s.respond opc st n p).channel j = s.channel j := rfl
@[simp] theorem State.channel_emit (s : State) (e : Event) (j : Nat) : (s.emit e).channel j = s.channel j := rfl
@[simp] theorem State.channel_purge (s : State) (src : TrigSource) (j : Nat) : (s.purge src).channel j = s.channel j := rfl

@[simp] theorem State.i2cBus_setSpiBus (s : State) (k : Nat) (b : SpiBus) (j : Nat) : (s.setSpiBus k b).i2cBus j = s.i2cBus j := rfl
@[simp] theorem State.i2cBus_setTimer (s : State) (k : Nat) (t : Timer) (j : Nat) : (s.setTimer k t).i2cBus j = s.i2cBus j := rfl
@[simp] theorem State.i2cBus_setPinLevel (s : State) (k : Nat) (v : Bool) (j : Nat) : (s.setPinLevel k v).i2cBus j = s.i2cBus j := rfl
@[simp] theorem State.i2cBus_setBinding (s : State) (k : Nat) (b : Binding) (j : Nat) : (s.setBinding k b).i2cBus j = s.i2cBus j := rfl
@[simp] theorem State.i2cBus_setChannel (s : State) (k : Nat) (d : Channel) (j : Nat) : (s.setChannel k d).i2cBus j = s.i2cBus j := rfl
@[simp] theorem State.i2cBus_setRead (s : State) (r : ReadState) (j : Nat) : (s.setRead r).i2cBus j = s.i2cBus j := rfl
@[simp] theorem State.i2cBus_setEngine (s : State) (e : Engine) (j : Nat) : (s.setEngine e).i2cBus j = s.i2cBus j := rfl
@[simp] theorem State.i2cBus_setRing (s : State) (r : Ring) (j : Nat) : (s.setRing r).i2cBus j = s.i2cBus j := rfl
@[simp] theorem State.i2cBus_drawFree (s : State) (j : Nat) : s.drawFree.i2cBus j = s.i2cBus j := rfl
@[simp] theorem State.i2cBus_respond (s : State) (opc : Byte) (st : Status) (n : BitVec 16) (p : List Word) (j : Nat) : (s.respond opc st n p).i2cBus j = s.i2cBus j := rfl
@[simp] theorem State.i2cBus_emit (s : State) (e : Event) (j : Nat) : (s.emit e).i2cBus j = s.i2cBus j := rfl
@[simp] theorem State.i2cBus_purge (s : State) (src : TrigSource) (j : Nat) : (s.purge src).i2cBus j = s.i2cBus j := rfl

@[simp] theorem State.spiBus_setI2cBus (s : State) (k : Nat) (b : I2cBus) (j : Nat) : (s.setI2cBus k b).spiBus j = s.spiBus j := rfl
@[simp] theorem State.spiBus_setTimer (s : State) (k : Nat) (t : Timer) (j : Nat) : (s.setTimer k t).spiBus j = s.spiBus j := rfl
@[simp] theorem State.spiBus_setPinLevel (s : State) (k : Nat) (v : Bool) (j : Nat) : (s.setPinLevel k v).spiBus j = s.spiBus j := rfl
@[simp] theorem State.spiBus_setBinding (s : State) (k : Nat) (b : Binding) (j : Nat) : (s.setBinding k b).spiBus j = s.spiBus j := rfl
@[simp] theorem State.spiBus_setChannel (s : State) (k : Nat) (d : Channel) (j : Nat) : (s.setChannel k d).spiBus j = s.spiBus j := rfl
@[simp] theorem State.spiBus_setRead (s : State) (r : ReadState) (j : Nat) : (s.setRead r).spiBus j = s.spiBus j := rfl
@[simp] theorem State.spiBus_setEngine (s : State) (e : Engine) (j : Nat) : (s.setEngine e).spiBus j = s.spiBus j := rfl
@[simp] theorem State.spiBus_setRing (s : State) (r : Ring) (j : Nat) : (s.setRing r).spiBus j = s.spiBus j := rfl
@[simp] theorem State.spiBus_drawFree (s : State) (j : Nat) : s.drawFree.spiBus j = s.spiBus j := rfl
@[simp] theorem State.spiBus_respond (s : State) (opc : Byte) (st : Status) (n : BitVec 16) (p : List Word) (j : Nat) : (s.respond opc st n p).spiBus j = s.spiBus j := rfl
@[simp] theorem State.spiBus_emit (s : State) (e : Event) (j : Nat) : (s.emit e).spiBus j = s.spiBus j := rfl
@[simp] theorem State.spiBus_purge (s : State) (src : TrigSource) (j : Nat) : (s.purge src).spiBus j = s.spiBus j := rfl

@[simp] theorem State.pinLevel_setI2cBus (s : State) (k : Nat) (b : I2cBus) (j : Nat) : (s.setI2cBus k b).pinLevel j = s.pinLevel j := rfl
@[simp] theorem State.pinLevel_setSpiBus (s : State) (k : Nat) (b : SpiBus) (j : Nat) : (s.setSpiBus k b).pinLevel j = s.pinLevel j := rfl
@[simp] theorem State.pinLevel_setTimer (s : State) (k : Nat) (t : Timer) (j : Nat) : (s.setTimer k t).pinLevel j = s.pinLevel j := rfl
@[simp] theorem State.pinLevel_setBinding (s : State) (k : Nat) (b : Binding) (j : Nat) : (s.setBinding k b).pinLevel j = s.pinLevel j := rfl
@[simp] theorem State.pinLevel_setChannel (s : State) (k : Nat) (d : Channel) (j : Nat) : (s.setChannel k d).pinLevel j = s.pinLevel j := rfl
@[simp] theorem State.pinLevel_setRead (s : State) (r : ReadState) (j : Nat) : (s.setRead r).pinLevel j = s.pinLevel j := rfl
@[simp] theorem State.pinLevel_setEngine (s : State) (e : Engine) (j : Nat) : (s.setEngine e).pinLevel j = s.pinLevel j := rfl
@[simp] theorem State.pinLevel_setRing (s : State) (r : Ring) (j : Nat) : (s.setRing r).pinLevel j = s.pinLevel j := rfl
@[simp] theorem State.pinLevel_drawFree (s : State) (j : Nat) : s.drawFree.pinLevel j = s.pinLevel j := rfl
@[simp] theorem State.pinLevel_respond (s : State) (opc : Byte) (st : Status) (n : BitVec 16) (p : List Word) (j : Nat) : (s.respond opc st n p).pinLevel j = s.pinLevel j := rfl
@[simp] theorem State.pinLevel_emit (s : State) (e : Event) (j : Nat) : (s.emit e).pinLevel j = s.pinLevel j := rfl
@[simp] theorem State.pinLevel_purge (s : State) (src : TrigSource) (j : Nat) : (s.purge src).pinLevel j = s.pinLevel j := rfl

end Sys2Proof.Machine
end

