-- ==== Sys2Proof/Laws/Ops.lean ====
section
/-! SUPPORT. What each shared operation over the state can do: one lemma per operation, cited instead of unfolding it. -/

namespace Sys2Proof.Machine

/-- `Latch(src, val)` (R287): the trigger enters TRIGQ, or TRIG_OVERRUN is set. -/
theorem latch_cases (src : TrigSource) (val : Bool) (s : State) :
    (s.trigq.length < s.cfg.trigqDepth ∧
      s.latch src val = { s with trigq := s.trigq ++ [{ src := src, val := val, ts := s.us }] }) ∨
    (s.cfg.trigqDepth ≤ s.trigq.length ∧ s.latch src val = { s with trigOverrun := true }) := by
  unfold State.latch
  split
  · next h => exact .inl ⟨h, rfl⟩
  · next h => exact .inr ⟨Nat.not_lt.mp h, rfl⟩

/-- `Latch` writes TRIGQ and TRIG_OVERRUN alone. -/
theorem latch_frame (src : TrigSource) (val : Bool) (s : State) :
    s.latch src val =
      { s with trigq := (s.latch src val).trigq, trigOverrun := (s.latch src val).trigOverrun } := by
  rcases latch_cases src val s with ⟨_, h⟩ | ⟨_, h⟩ <;> rw [h]

/-- Latching several timers writes TRIGQ and TRIG_OVERRUN alone (R285). -/
theorem latchAll_frame (is : List Nat) (s : State) :
    is.foldl (fun s' i => s'.latch (.timer i) false) s =
      { s with
        trigq := (is.foldl (fun s' i => s'.latch (.timer i) false) s).trigq
        trigOverrun := (is.foldl (fun s' i => s'.latch (.timer i) false) s).trigOverrun } := by
  induction is generalizing s with
  | nil => rfl
  | cons i is ih =>
    simp only [List.foldl_cons]
    rw [ih]
    rcases latch_cases (.timer i) false s with ⟨_, h⟩ | ⟨_, h⟩ <;> simp only [h]

/-- `Purge` keeps exactly the entries of other sources (R288). -/
theorem mem_purgeSources (srcs : List TrigSource) (q : List Trigger) (e : Trigger) :
    e ∈ purgeSources srcs q ↔ e ∈ q ∧ e.src ∉ srcs := by
  simp [purgeSources]

/-- The bus target's answer writes the script and the count of free values alone (R91). -/
theorem busAnswer_frame (q : BusRequest) (s : State) :
    (s.busAnswer q).2 = { s with busScript := (s.busAnswer q).2.busScript, free := (s.busAnswer q).2.free } := by
  unfold State.busAnswer
  split
  · rfl
  · split <;> rfl
  · rfl

/-- A successful answer has exactly the bytes asked for (R91). -/
theorem busAnswer_length (q : BusRequest) (s : State) (bytes : List Byte) (h : (s.busAnswer q).1 = .ok bytes) :
    bytes.length = q.n := by
  have free : ∀ k, freeBusAnswer k q = .ok bytes → bytes.length = q.n := by
    intro k hk
    unfold freeBusAnswer at hk
    split at hk
    · cases hk; simp
    · cases hk
  unfold State.busAnswer at h
  split at h
  · cases h
  · split at h
    · next hl => cases h; exact hl
    · exact free _ h
  · exact free _ h

theorem busRequest_n (s : State) (bus : BusRef) (dev reg : Byte) (n : Nat) : (s.busRequest bus dev reg n).n = n := by
  unfold State.busRequest
  split <;> rfl

/-- What `BusRead` can do (R91): one BUSLOG entry, a script entry or a free value used up. -/
theorem busRead_frame (bus : BusRef) (dev reg : Byte) (n : Nat) (s : State) :
    (busRead bus dev reg n s).2 =
      { s with
        busScript := (busRead bus dev reg n s).2.busScript
        free := (busRead bus dev reg n s).2.free
        busLog := s.busLog ++ [{ bus := bus, dev := dev, reg := reg, n := n, result := (busRead bus dev reg n s).1 }] } := by
  unfold busRead
  simp only []
  conv_lhs => rw [busAnswer_frame]

theorem busRead_length (bus : BusRef) (dev reg : Byte) (n : Nat) (s : State) (bytes : List Byte)
    (h : (busRead bus dev reg n s).1 = .ok bytes) : bytes.length = n := by
  have := busAnswer_length (s.busRequest bus dev reg n) s bytes h
  rwa [busRequest_n] at this

/-- The stop of a timer (R182): its state is STOPPED, its target kept. -/
theorem stopTimer_cases (i : Nat) (s : State) :
    ((s.timer i).state = .stopped ∧ s.stopTimer i = s) ∨
    ((s.timer i).state ≠ .stopped ∧ s.stopTimer i = (s.setTimer i ((s.timer i).halt s.free i)).drawFree) := by
  unfold State.stopTimer
  split
  · next h => exact .inl ⟨h, rfl⟩
  · next h => exact .inr ⟨h, rfl⟩

@[simp] theorem Timer.halt_state (k i : Nat) (t : Timer) : (t.halt k i).state = .stopped := rfl

@[simp] theorem Timer.halt_target (k i : Nat) (t : Timer) : (t.halt k i).target = t.target := rfl

/-- The removal of a binding (R201). -/
theorem unbind_cases (p : Nat) (s : State) :
    ((s.binding p).valid = false ∧ s.unbind p = s) ∨
    ((s.binding p).valid = true ∧ s.unbind p = (s.setBinding p (Binding.clear s.free p)).drawFree) := by
  unfold State.unbind
  split
  · next h => exact .inr ⟨h, rfl⟩
  · next h => exact .inl ⟨by simpa using h, rfl⟩

@[simp] theorem Binding.clear_valid (k p : Nat) : (Binding.clear k p).valid = false := rfl

/-- The first part of the stop procedure writes TMR, BIND, TRIGQ and the count of free values alone (R216). -/
theorem disarmTrigger_frame (s : State) :
    s.disarmTrigger =
      { s with
        tmr := s.disarmTrigger.tmr
        bind := s.disarmTrigger.bind
        trigq := s.disarmTrigger.trigq
        free := s.disarmTrigger.free } := by
  unfold State.disarmTrigger
  split
  · rcases stopTimer_cases s.cfg.streamTimer s with ⟨_, h⟩ | ⟨_, h⟩ <;> rw [h] <;> rfl
  · rfl

/-- What the stop procedure can do (R216). -/
theorem stopProcedure_frame (s : State) :
    stopProcedure s =
      { s with
        tmr := s.disarmTrigger.tmr
        bind := s.disarmTrigger.bind
        trigq := s.disarmTrigger.trigq
        free := s.disarmTrigger.free
        ch := s.ch.map fun d => { d with active := false }
        eng := { s.eng with armed := false } } := by
  unfold stopProcedure
  rw [disarmTrigger_frame]

/-- What the fetch of a sample can do (R253, R259): BUSLOG entries and the answers used up. -/
theorem fetchBlocks_frame (bus : BusRef) (dev : Byte) (bs : List Block) (err : Bool) (s : State) :
    (fetchBlocks bus dev bs err s).state =
      { s with
        busScript := (fetchBlocks bus dev bs err s).state.busScript
        free := (fetchBlocks bus dev bs err s).state.free
        busLog := (fetchBlocks bus dev bs err s).state.busLog } := by
  induction bs generalizing err s with
  | nil => rfl
  | cons b bs ih =>
    have hb := busRead_frame bus dev b.reg b.cnt.toNat s
    cases err with
    | true => simpa only [fetchBlocks] using ih true s
    | false =>
      simp only [fetchBlocks]
      split <;> next s1 heq =>
        have h2 : (busRead bus dev b.reg b.cnt.toNat s).2 = s1 := by rw [heq]
        rw [h2] at hb
        simp only []
        rw [ih]
        generalize (fetchBlocks bus dev bs _ s1).state = x
        rw [hb]

/-- What a step can do (R9, R301): a Dispatch that PROMPT puts first, or the step of the next agent. -/
theorem step_cases (s : State) :
    (s.mustDispatch = true ∧ nextStep s = dispatchStep s) ∨
    (s.mustDispatch = false ∧ nextStep s = agentStep s.nextAgent s.advance) := by
  unfold nextStep
  cases h : s.mustDispatch
  · exact .inr ⟨rfl, by simp⟩
  · exact .inl ⟨rfl, by simp⟩

/-- Taking the next agent step writes the schedule and its counter alone. -/
theorem advance_frame (s : State) : s.advance = { s with sched := s.advance.sched, drawn := s.advance.drawn } := by
  unfold State.advance
  split <;> rfl

/-- SUCCESS is 0 under every allowed STATUS_CODE (R137). -/
theorem success_code (p : Params) (h : p.Ok) : p.statusCode.code .success = 0 := h.2.2.2.2.2.2.2.2.2.2.2.2.2.1

/-- `Purge` of one source keeps the entries of other sources (R288). -/
theorem purgeSources_single (src : TrigSource) (q : List Trigger) :
    purgeSources [src] q = q.filter (fun e => decide (e.src ≠ src)) := by
  unfold purgeSources
  congr 1
  funext e
  simp

/-- A channel matches a mode when it is valid and has it (R44). -/
theorem matchesMode_iff (m : EngineMode) (d : Channel) : d.matchesMode m = true ↔ d.valid = true ∧ d.mode = m := by
  simp [Channel.matchesMode]

/-- The matching channels (R44, R212). -/
theorem mem_matching (s : State) (m : EngineMode) (d : Channel) :
    d ∈ s.matching m ↔ d ∈ s.ch ∧ d.valid = true ∧ d.mode = m := by
  simp [State.matching, matchesMode_iff]

/-- A valid channel is an entry of the table. -/
theorem channel_mem (s : State) (c : Nat) (h : (s.channel c).valid = true) : s.channel c ∈ s.ch := by
  unfold State.channel at *
  by_cases hc : c < s.ch.length
  · simp [hc]
  · simp [hc, Channel.reset] at h

/-- An entry of the table is some channel. -/
theorem channel_of_mem (s : State) (d : Channel) (h : d ∈ s.ch) : ∃ c, c < s.ch.length ∧ s.channel c = d := by
  obtain ⟨c, hc, rfl⟩ := List.mem_iff_getElem.mp h
  exact ⟨c, hc, by simp [State.channel, hc]⟩

/-- Mapping the table maps every channel, when the map leaves the channel after reset as it is. -/
theorem channel_map (s : State) (f : Channel → Channel) (hf : f Channel.reset = Channel.reset) (c : Nat) :
    (s.ch.map f).getD c Channel.reset = f (s.channel c) := by
  unfold State.channel
  by_cases hc : c < s.ch.length
  · simp [hc]
  · simp [hc, hf]

/-- The pins of the matching interrupt channels (R212, R216). -/
theorem pins_contains (s : State) (p : Nat) : (pinsOf (s.matching .interrupt)).contains p = true ↔
    ∃ d ∈ s.ch, d.valid = true ∧ d.mode = .interrupt ∧ d.intPin.toNat = p := by
  simp [pinsOf, mem_matching, and_assoc]

/-- Every period in microseconds fits 32 bits (R211, R15(c)). -/
theorem periodUs_lt (d : Channel) : d.periodUs < 2 ^ 32 := by
  have := d.period.isLt
  unfold Channel.periodUs
  split <;> omega

/-- What the command port can hold after it accepts words: no whole frame and all the words, or one whole frame and
nothing after it, unless it held a whole frame before and accepts nothing (R10, R121). -/
theorem portAccept_cases (port words : List Word) :
    ((∃ x, splitFrame port = some x) ∧ portAccept port words = port) ∨
    (splitFrame port = none ∧ splitFrame (port ++ words) = none ∧ portAccept port words = port ++ words) ∨
    (splitFrame port = none ∧ ∃ frame rest, splitFrame (port ++ words) = some (frame, rest) ∧
      portAccept port words = frame) := by
  unfold portAccept
  split
  · next x h => exact .inl ⟨⟨x, h⟩, rfl⟩
  · next h =>
    split
    · next f r hf => exact .inr (.inr ⟨h, f, r, hf, rfl⟩)
    · next hf => exact .inr (.inl ⟨h, hf, rfl⟩)

/-- The command port accepts no word while a STR_READ is in progress (R10, U17). -/
theorem acceptWords_busy (words : List Word) (s : State) (h : s.rd.busy = true) : s.acceptWords words = s := by
  simp [State.acceptWords, h]

/-- With no read in progress the command port accepts words, and nothing else changes. -/
theorem acceptWords_idle (words : List Word) (s : State) (h : s.rd.busy = false) :
    s.acceptWords words = { s with cmdPort := portAccept s.cmdPort words } := by
  simp [State.acceptWords, h]

/-- What a foreground step can do (R9, R217): a step of the read in progress, nothing, or the frame at the port. -/
theorem foregroundStep_cases (s : State) :
    (s.rd.busy = true ∧ s.rd.left = 0 ∧ foregroundStep s = rdEnd s) ∨
    (s.rd.busy = true ∧ s.rd.left ≠ 0 ∧ foregroundStep s = rdPop s) ∨
    (s.rd.busy = false ∧ splitFrame s.cmdPort = none ∧ foregroundStep s = .next s) ∨
    (s.rd.busy = false ∧ ∃ frame rest, splitFrame s.cmdPort = some (frame, rest) ∧
      foregroundStep s = runFrame frame { s with cmdPort := rest }) := by
  unfold foregroundStep
  cases hb : s.rd.busy
  · refine .inr (.inr ?_)
    cases hf : splitFrame s.cmdPort with
    | none => exact .inl ⟨rfl, rfl, by simp⟩
    | some x => exact .inr ⟨rfl, x.1, x.2, rfl, by simp⟩
  · by_cases hl : s.rd.left = 0
    · exact .inl ⟨rfl, hl, by simp [hl]⟩
    · exact .inr (.inl ⟨rfl, hl, by simpa using fun h => absurd h hl⟩)

end Sys2Proof.Machine
end

