-- ==== Sys2Proof/Laws/PerInstr.lean ====
section
/-! SUPPORT. Facts about every command as syntax, one lemma per constructor of `Instr`. -/

namespace Sys2Proof.Laws

/-- The header of a command carries its opcode, and the frame is as long as its header says (R121). -/
def FrameShape.Statement (i : Instr) : Prop :=
  i.wf = true → opcOf i.header = i.opcode.code ∧ (encode i).length = frameWords i.header

theorem FrameShape.busCfg (bus : BusRef) (speed : Byte) (bmode : BitVec 4) :
    FrameShape.Statement (.busCfg bus speed bmode) := by
  intro _
  simp (disch := decide) [encode, Instr.header, Instr.extension, frameWords, opcOf, field_or, field_place_same,
    field_place_disjoint, Opcode.ofCode?, Instr.opcode, Opcode.code]

theorem FrameShape.busCfgw (bus : BusRef) (speed : Byte) (w16 : Bool) (bmode : BitVec 4) :
    FrameShape.Statement (.busCfgw bus speed w16 bmode) := by
  intro _
  simp (disch := decide) [encode, Instr.header, Instr.extension, frameWords, opcOf, field_or, field_place_same,
    field_place_disjoint, Opcode.ofCode?, Instr.opcode, Opcode.code]

theorem FrameShape.busDecfg (bus : BusRef) :
    FrameShape.Statement (.busDecfg bus) := by
  intro _
  simp (disch := decide) [encode, Instr.header, Instr.extension, frameWords, opcOf, field_or, field_place_same,
    field_place_disjoint, Opcode.ofCode?, Instr.opcode, Opcode.code]

theorem FrameShape.tmrCfg (inst : Byte) (tag : Byte) :
    FrameShape.Statement (.tmrCfg inst tag) := by
  intro _
  simp (disch := decide) [encode, Instr.header, Instr.extension, frameWords, opcOf, field_or, field_place_same,
    field_place_disjoint, Opcode.ofCode?, Instr.opcode, Opcode.code]

theorem FrameShape.tmrStart (inst : Byte) (oneshot : Bool) (timeout : BitVec 32) :
    FrameShape.Statement (.tmrStart inst oneshot timeout) := by
  intro _
  simp (disch := decide) [encode, Instr.header, Instr.extension, frameWords, opcOf, field_or, field_place_same,
    field_place_disjoint, Opcode.ofCode?, Instr.opcode, Opcode.code]

theorem FrameShape.tmrStop (inst : Byte) :
    FrameShape.Statement (.tmrStop inst) := by
  intro _
  simp (disch := decide) [encode, Instr.header, Instr.extension, frameWords, opcOf, field_or, field_place_same,
    field_place_disjoint, Opcode.ofCode?, Instr.opcode, Opcode.code]

theorem FrameShape.tmrReset (inst : Byte) :
    FrameShape.Statement (.tmrReset inst) := by
  intro _
  simp (disch := decide) [encode, Instr.header, Instr.extension, frameWords, opcOf, field_or, field_place_same,
    field_place_disjoint, Opcode.ofCode?, Instr.opcode, Opcode.code]

theorem FrameShape.intAttach (pin : Byte) (policy : Policy) (tag : Byte) :
    FrameShape.Statement (.intAttach pin policy tag) := by
  intro _
  simp (disch := decide) [encode, Instr.header, Instr.extension, frameWords, opcOf, field_or, field_place_same,
    field_place_disjoint, Opcode.ofCode?, Instr.opcode, Opcode.code]

theorem FrameShape.intDetach (pin : Byte) :
    FrameShape.Statement (.intDetach pin) := by
  intro _
  simp (disch := decide) [encode, Instr.header, Instr.extension, frameWords, opcOf, field_or, field_place_same,
    field_place_disjoint, Opcode.ofCode?, Instr.opcode, Opcode.code]

theorem FrameShape.strCfg (chan : BitVec 4) (bus : BusRef) (dev : Byte) (period : BitVec 16) (unit : UnitCode) (tsEn : Bool) (intEn : Bool) (intPol : Policy) (intPin : Byte) (blocks : List Block) :
    FrameShape.Statement (.strCfg chan bus dev period unit tsEn intEn intPol intPin blocks) := by
  intro h
  have hb : blocks.length ≤ maxFrameBlocks := of_decide_eq_true h
  unfold maxFrameBlocks at hb
  have hm : blocks.length % 16 = blocks.length := Nat.mod_eq_of_lt (by omega)
  simp (disch := decide) [encode, Instr.header, Instr.extension, frameWords, opcOf, fieldNB, field_or, field_place_same,
    field_place_disjoint, Opcode.ofCode?, Instr.opcode, Opcode.code, hm]
  omega

theorem FrameShape.strStart (mode : EngineMode) (sampleCount : BitVec 16) :
    FrameShape.Statement (.strStart mode sampleCount) := by
  intro _
  simp (disch := decide) [encode, Instr.header, Instr.extension, frameWords, opcOf, field_or, field_place_same,
    field_place_disjoint, Opcode.ofCode?, Instr.opcode, Opcode.code]

theorem FrameShape.strStop (mode : EngineMode) (sampleCount : BitVec 16) :
    FrameShape.Statement (.strStop mode sampleCount) := by
  intro _
  simp (disch := decide) [encode, Instr.header, Instr.extension, frameWords, opcOf, field_or, field_place_same,
    field_place_disjoint, Opcode.ofCode?, Instr.opcode, Opcode.code]

theorem FrameShape.strRead (chf : Byte) (maxRecords : BitVec 16) :
    FrameShape.Statement (.strRead chf maxRecords) := by
  intro _
  simp (disch := decide) [encode, Instr.header, Instr.extension, frameWords, opcOf, field_or, field_place_same,
    field_place_disjoint, Opcode.ofCode?, Instr.opcode, Opcode.code]

theorem FrameShape.getMs :
    FrameShape.Statement .getMs := by
  intro _
  simp (disch := decide) [encode, Instr.header, Instr.extension, frameWords, opcOf, field_place_same, Opcode.ofCode?,
    Instr.opcode, Opcode.code]

theorem FrameShape.getUs :
    FrameShape.Statement .getUs := by
  intro _
  simp (disch := decide) [encode, Instr.header, Instr.extension, frameWords, opcOf, field_place_same, Opcode.ofCode?,
    Instr.opcode, Opcode.code]

end Sys2Proof.Laws
end

