-- ==== Sys2Proof/Laws/Ring.lean ====
section
/-! SUPPORT. What each operation of the ring can do when it answers: one lemma per operation, cited instead of unfolding
it. -/

namespace Sys2Proof.Machine

theorem ringByte_ok {cap : Nat} {m : Memory} {off : Nat} {b : Byte} (h : ringByte cap m off = .ok b) :
    off < cap ∧ m.read off = some b := by
  unfold ringByte at h
  split at h
  · next hlt =>
    refine ⟨hlt, ?_⟩
    split at h
    · next b' hb => rw [hb]; cases h; rfl
    · cases h
  · cases h

theorem ringByte_eq {cap : Nat} {m : Memory} {off : Nat} {b : Byte} (h : off < cap) (hb : m.read off = some b) :
    ringByte cap m off = .ok b := by
  simp [ringByte, h, hb]

/-- `RingRead(off, n)` gives n bytes, the k-th the byte at (off + k) mod BUF_CAP (R84). -/
theorem ringRead_ok {cap : Nat} {m : Memory} {n : Nat} {off : Nat} {bs : List Byte}
    (h : ringRead cap m off n = .ok bs) :
    bs.length = n ∧ ∀ k, (hk : k < bs.length) → m.read ((off + k) % cap) = some bs[k] := by
  induction n generalizing off bs with
  | zero => cases h; simp
  | succ n ih =>
    simp only [ringRead] at h
    split at h
    · cases h
    · next b hb =>
      split at h
      · cases h
      · next bs' hbs =>
        cases h
        obtain ⟨hl, hr⟩ := ih hbs
        refine ⟨by simp [hl], fun k hk => ?_⟩
        cases k with
        | zero => simpa using (ringByte_ok hb).2
        | succ k =>
          have := hr k (by simpa using hk)
          rw [show off + (k + 1) = off + 1 + k by omega]
          simpa using this

theorem ringRead_eq {cap : Nat} {m : Memory} {bs : List Byte} {off : Nat} (hc : 0 < cap)
    (h : ∀ k, (hk : k < bs.length) → m.read ((off + k) % cap) = some bs[k]) :
    ringRead cap m off bs.length = .ok bs := by
  induction bs generalizing off with
  | nil => rfl
  | cons b bs ih =>
    have h0 := ringByte_eq (Nat.mod_lt off hc) (h 0 (by simp))
    have h1 : ringRead cap m (off + 1) bs.length = .ok bs := by
      refine ih fun k hk => ?_
      have := h (k + 1) (by simpa using hk)
      rw [show off + 1 + k = off + (k + 1) by omega]
      simpa using this
    simp only [List.length_cons, ringRead]
    rw [h0, h1]
    simp

theorem recordSizeAt_ok {cap : Nat} {m : Memory} {off n : Nat} (h : recordSizeAt cap m off = .ok n) :
    ∃ len : Byte, m.read ((off + 2) % cap) = some len ∧ n = hdrBytes + len.toNat := by
  unfold recordSizeAt at h
  split at h
  · cases h
  · next len hl => cases h; exact ⟨len, (ringByte_ok hl).2, rfl⟩

/-- What the reclaim leaves alone (R87). -/
theorem reclaimLoop_ok {cap fuel : Nat} {r r' : Ring} (h : reclaimLoop cap fuel r = .ok r') :
    r'.buf = r.buf ∧ r'.tail = r.tail ∧ r'.ovf = r.ovf ∧ r'.used ≤ r.used := by
  induction fuel generalizing r with
  | zero => cases h; simp
  | succ fuel ih =>
    simp only [reclaimLoop] at h
    split at h
    · cases h; simp
    · split at h
      · cases h
      · split at h
        · split at h
          · cases h
          · split at h
            · cases h
            · next n _ _ =>
              obtain ⟨h1, h2, h3, h4⟩ := ih h
              exact ⟨h1, h2, h3, h4.trans (Nat.sub_le _ _)⟩
        · cases h; simp

/-- What `Reclaim()` can do (R87): it moves `head` and lowers `used`, nothing else. -/
theorem reclaim_ok {cap : Nat} {r r' : Ring} (h : reclaim cap r = .ok r') :
    r'.buf = r.buf ∧ r'.tail = r.tail ∧ r'.ovf = r.ovf ∧ r'.used ≤ r.used := reclaimLoop_ok h

/-- What `EvictOldest()` can do (R86): it moves `head`, lowers `used` and sets OVF. -/
theorem evictOldest_ok {cap : Nat} {r r' : Ring} (h : evictOldest cap r = .ok r') :
    r'.buf = r.buf ∧ r'.tail = r.tail ∧ r'.ovf = true ∧ r'.used < r.used := by
  unfold evictOldest at h
  split at h
  · cases h
  · split at h
    · cases h
    · next n hn =>
      split at h
      · cases h
      · obtain ⟨h1, h2, h3, h4⟩ := reclaim_ok h
        obtain ⟨len, _, rfl⟩ := recordSizeAt_ok hn
        refine ⟨h1, h2, h3, Nat.lt_of_le_of_lt h4 ?_⟩
        simp only [Ring.dropHead]
        unfold hdrBytes at *
        omega

/-- What the evictions of a push can do (R85): nothing when the record fits, else OVF is set and room made. -/
theorem evictLoop_ok {cap n fuel : Nat} {r r' : Ring} (h : evictLoop cap n fuel r = .ok r') :
    r'.buf = r.buf ∧ r'.tail = r.tail ∧ r'.used ≤ r.used ∧ n ≤ cap - r'.used ∧
    (r' = r ∨ cap - r.used < n ∧ r'.ovf = true) := by
  induction fuel generalizing r with
  | zero =>
    simp only [evictLoop] at h
    split at h
    · cases h
    · next hn => cases h; exact ⟨rfl, rfl, le_refl _, by omega, .inl rfl⟩
  | succ fuel ih =>
    simp only [evictLoop] at h
    split at h
    · next hn =>
      split at h
      · cases h
      · next r1 h1 =>
        obtain ⟨e1, e2, e3, e4⟩ := evictOldest_ok h1
        obtain ⟨i1, i2, i3, i4, i5⟩ := ih h
        refine ⟨i1.trans e1, i2.trans e2, by omega, i4, .inr ⟨hn, ?_⟩⟩
        rcases i5 with rfl | i5
        · exact e3
        · exact i5.2
    · next hn => cases h; exact ⟨rfl, rfl, le_refl _, by omega, .inl rfl⟩

/-- What `Push(rec)` can do (R85): room is made at the head, then the record is written at the tail. -/
theorem push_ok {cap : Nat} {rec : List Byte} {r r' : Ring} (h : push cap rec r = .ok r') :
    ∃ r1, evictLoop cap rec.length r.used r = .ok r1 ∧ r' = r1.append cap rec := by
  unfold push at h
  split at h
  · cases h
  · next r1 h1 => cases h; exact ⟨r1, h1, rfl⟩

/-- What the scan of `PopOne(filter)` can do (R88): it finds nothing and leaves the ring alone, or reads a record
somewhere in the ring and consumes it. -/
theorem popScan_ok {cap : Nat} {filter : Byte} {fuel off rem : Nat} {r r' : Ring} {out : Option (List Byte)}
    (h : popScan cap filter fuel off rem r = .ok (out, r')) :
    (out = none ∧ r' = r) ∨
    ∃ off' flags size rec tag, recordHeaderAt cap r.buf off' = .ok (tag, flags, size) ∧ flagConsumed flags = false ∧
      filterMatches filter tag = true ∧ ringRead cap r.buf off' size = .ok rec ∧ out = some rec ∧
      consumeAt cap off' flags r = .ok r' := by
  induction fuel generalizing off rem with
  | zero => cases h; exact .inl ⟨rfl, rfl⟩
  | succ fuel ih =>
    simp only [popScan] at h
    split at h
    · cases h; exact .inl ⟨rfl, rfl⟩
    · split at h
      · cases h
      · next tag flags size hh =>
        split at h
        · cases h
        · split at h
          · next hm =>
            split at h
            · cases h
            · next rec hrec =>
              split at h
              · cases h
              · next r1 hr1 =>
                cases h
                simp only [Bool.and_eq_true, Bool.not_eq_true'] at hm
                exact .inr ⟨off, flags, size, rec, tag, hh, hm.1, hm.2, hrec, rfl, hr1⟩
          · exact ih h

/-- What consuming a record can do (R88): one FLAGS byte is marked, `head` and `used` move. -/
theorem consumeAt_ok {cap off : Nat} {flags : Byte} {r r' : Ring} (h : consumeAt cap off flags r = .ok r') :
    r'.buf = r.buf.write ((off + 1) % cap) (markConsumed flags) ∧ r'.tail = r.tail ∧ r'.ovf = r.ovf ∧
    r'.used ≤ r.used := reclaim_ok h

/-- What `PopOne(filter)` leaves alone (R88): `tail` and OVF, and `used` never grows. -/
theorem popOne_ok {cap : Nat} {filter : Byte} {r r' : Ring} {out : Option (List Byte)}
    (h : popOne cap filter r = .ok (out, r')) : r'.tail = r.tail ∧ r'.ovf = r.ovf ∧ r'.used ≤ r.used := by
  rcases popScan_ok h with ⟨_, rfl⟩ | ⟨_, _, _, _, _, _, _, _, _, _, hc⟩
  · exact ⟨rfl, rfl, le_refl _⟩
  · exact ⟨(consumeAt_ok hc).2.1, (consumeAt_ok hc).2.2.1, (consumeAt_ok hc).2.2.2⟩

end Sys2Proof.Machine
end

