-- ==== Sys2Proof/Tests/Slice0.lean ====
section
/-! SUPPORT. Tests with expected results from the examples of spec/ (the rules' own and 95_test_vectors.md), and the
witnesses: for each statement of Certificates/Slice0/Obligations.lean with hypotheses, a concrete state and operands that
meet them, one for each clause. -/

namespace Sys2Proof.Tests

open Sys2Proof Sys2Proof.Machine

/-! ## Small states -/

/-- I2C bus 0. -/
def i2c0 : BusRef := { kind := .i2c, idx := 0 }

/-- SPI bus 1. -/
def spi1 : BusRef := { kind := .spi, idx := 1 }

/-- A bus reference one past the last I2C bus of REF. -/
def i2c2 : BusRef := { kind := .i2c, idx := 2 }

/-- The descriptor of the example of R210. -/
def chan0 : Channel :=
  { Channel.reset with
    valid := true, bus := i2c0, dev := 0x18, blocks := [{ reg := 0, cnt := 2 }], period := 10, unit := .milliseconds,
    tsEn := true }

/-- A channel on pin 5, rising edges. -/
def chan1 : Channel :=
  { chan0 with intEn := true, intPin := 5, intPol := .risingEdge, tsEn := false }

/-- A channel on pin 5, falling edges. -/
def chan2 : Channel := { chan1 with intPol := .fallingEdge }

/-- REF with I2C bus 0 configured. -/
def busUp : State :=
  { State.reset with i2c := [{ configured := true, speed := 1, mode := 1 }, I2cBus.reset] }

/-- REF with every bus configured. -/
def allBusesUp : State :=
  { busUp with
    spi := [{ configured := true, speed := 0, mode := 0, width16 := false },
      { configured := true, speed := 0, mode := 0, width16 := false }] }

/-- The descriptors of a polling channel and two interrupt channels on one pin stored. -/
def stored : State := { busUp with ch := [chan0, chan1, chan2, Channel.reset] }

/-- The descriptors stored, no bus configured. -/
def storedNoBus : State := { State.reset with ch := [chan0, chan1, chan2, Channel.reset] }

/-- A running timer of the engine. -/
def streamTimer : Timer := { state := .running, target := .stream, timeout := 10000, cnt := 9999, oneshot := false }

/-- Armed in POLLING mode with the cap 3, one microsecond before a tick. -/
def polling : State :=
  { stored with
    ch := [{ chan0 with active := true, div := 1 }, chan1, chan2, Channel.reset]
    tmr := [streamTimer, { Timer.reset with state := .ready, target := .ext 7 }, Timer.reset,
      { state := .running, target := .ext 9, timeout := 5, cnt := 4, oneshot := true }]
    eng := { armed := true, amode := .polling, cap := 3 } }

/-- Armed in INTERRUPT mode, unbounded, with pin 5 bound to the engine and pin 31 to the host. -/
def edges : State :=
  { stored with
    ch := [chan0, { chan1 with active := true }, { chan2 with active := true }, Channel.reset]
    bind := (State.reset.bind.set 5 { valid := true, policy := .onChange, target := .stream }).set 31
      { valid := true, policy := .risingEdge, target := .ext 8 }
    eng := { armed := true, amode := .interrupt, cap := 0 } }

/-- The trigger of a fire of the engine's timer at US = 11000. -/
def fire : Trigger := { src := .timer 0, val := false, ts := 11000 }

/-- The trigger of a rising edge of pin 5. -/
def edge5 : Trigger := { src := .pin 5, val := true, ts := 12 }

/-- A polling tick about to be dispatched, with the bytes of the example of R255 on the bus. -/
def ticking : State := { polling with us := 11000, trigq := [fire], busScript := [.ok [0x12, 0x34]], sched := [.usTick] }

/-- The same tick one record short of the cap. -/
def capped : State := { ticking with ch := [{ chan0 with active := true, div := 1, produced := 2 }] ++ ticking.ch.tail }

/-- SMALL with one record of channel 1 at the end of the ring, wrapping past its last byte. -/
def smallRing : Ring :=
  { buf := [(0, 0x02), (1, 0xAA), (2, 0xBB), (30, 0x01), (31, 0x00)], head := 30, tail := 3, used := 5, ovf := false }

/-- The last response of an outcome. -/
def answer (r : Result) : Option (List Word) :=
  match r with
  | .next t => t.rsp.getLast?
  | .fault _ => none
  | .refused _ => none

/-- A fact about the state of an operation that has one. -/
def okHolds (x : Except Fault State) (p : State → Bool) : Bool :=
  match x with
  | .ok t => p t
  | .error _ => false

/-- A fact about the next state of an outcome. -/
def holds (r : Result) (p : State → Bool) : Bool :=
  match r with
  | .next t => p t
  | .fault _ => false
  | .refused _ => false

theorem next_of {r : Result} {p : State → Bool} (h : holds r p = true) : ∃ t, r = .next t ∧ p t = true := by
  cases r with
  | next t => exact ⟨t, rfl, h⟩
  | fault _ => cases h
  | refused _ => cases h

theorem next_exists {r : Result} (h : holds r (fun _ => true) = true) : ∃ t, r = .next t :=
  (next_of h).imp fun _ ht => ht.1

theorem ok_of {α : Type} {x : Except Fault α} (h : x.toBool = true) : ∃ a, x = .ok a := by
  cases x with
  | ok a => exact ⟨a, rfl⟩
  | error _ => cases h

/-- The due set of an outcome of DueSet is the given list. -/
def dueIs (x : Except Fault (List Nat × State)) (due : List Nat) : Bool :=
  match x with
  | .ok (d, _) => decide (d = due)
  | .error _ => false

theorem due_of {x : Except Fault (List Nat × State)} {due : List Nat} (h : dueIs x due = true) :
    ∃ s1, x = .ok (due, s1) := by
  cases x with
  | ok y => exact ⟨y.2, by rw [← of_decide_eq_true (show decide (y.1 = due) = true from h)]⟩
  | error _ => cases h

/-- The header selects no row of the table, so no command's row. -/
theorem no_row {h : Word} (d : (rowTable.all fun r => !decide (h &&& r.1 = r.2)) = true) (j : Instr) :
    selectsRow h j = false := by
  have hj := List.all_eq_true.mp d (j.rowMask, j.rowMatch) (row_mem j)
  unfold selectsRow
  exact Bool.not_eq_true' _ ▸ hj

theorem no_opc {h : Word} (d : (rowTable.all fun r => decide (opcOf h ≠ opcOf r.2)) = true) (j : Instr) :
    opcOf h ≠ opcOf j.rowMatch :=
  of_decide_eq_true (List.all_eq_true.mp d (j.rowMask, j.rowMatch) (row_mem j))

/-! ## Well-formedness -/

theorem test_wf_refuses_sixteen_blocks :
    (Instr.strCfg 0 i2c0 0 1 .microseconds false false .onChange 0 (List.replicate 16 { reg := 0, cnt := 1 })).wf = false := by
  decide

theorem test_wf_takes_fifteen_blocks :
    (Instr.strCfg 0 i2c0 0 1 .microseconds false false .onChange 0 (List.replicate 15 { reg := 0, cnt := 1 })).wf = true := by
  decide

/-! ## Decoding: words written out from R125 to R135 -/

/-- OPC 01, BUSID 00, SPEED 01, BMODE 1. -/
theorem test_decode_busCfg : decode [0x01000101] = .ok (.busCfg i2c0 1 1) := by decide

/-- OPC 02, BUSID 81, SPEED 02, W16 1, BMODE 0. -/
theorem test_decode_busCfgw : decode [0x02810280] = .ok (.busCfgw spi1 2 true 0) := by decide

theorem test_decode_busDecfg : decode [0x03810000] = .ok (.busDecfg spi1) := by decide

theorem test_decode_tmrCfg : decode [0x1001005A] = .ok (.tmrCfg 1 0x5A) := by decide

/-- OPC 11, INST 03, ONESHOT 1; E0 = FFFFFFFF. -/
theorem test_decode_tmrStart : decode [0x11030001, 0xFFFFFFFF] = .ok (.tmrStart 3 true 0xFFFFFFFF) := by decide

theorem test_decode_tmrStop : decode [0x12010000] = .ok (.tmrStop 1) := by decide

theorem test_decode_tmrReset : decode [0x13010000] = .ok (.tmrReset 1) := by decide

/-- OPC 20, PIN 05, POLICY 1 in bits 9:8, TAG 07. -/
theorem test_decode_intAttach : decode [0x20050107] = .ok (.intAttach 5 .risingEdge 7) := by decide

theorem test_decode_intDetach : decode [0x21050000] = .ok (.intDetach 5) := by decide

/-- The example of R210. -/
theorem test_decode_strCfg : decode [0x30100018, 0x000A6000, 0x00000002] =
    .ok (.strCfg 0 i2c0 0x18 10 .milliseconds true false .onChange 0 [{ reg := 0, cnt := 2 }]) := by decide

/-- NB 2, CH 1, BUSID 80, DEV 09; PERIOD 0, UNIT 0, INT_EN, INT_POL 2, INT_PIN 05; blocks (10, 3) and (20, 4). -/
theorem test_decode_strCfg_interrupt : decode [0x30218009, 0x00001805, 0x00001003, 0x00002004] =
    .ok (.strCfg 1 { kind := .spi, idx := 0 } 9 0 .microseconds false true .fallingEdge 5
      [{ reg := 0x10, cnt := 3 }, { reg := 0x20, cnt := 4 }]) := by decide

/-- OPC 31, MODE 1, START 1, SAMPLE_COUNT 0. -/
theorem test_decode_strStart : decode [0x31030000] = .ok (.strStart .interrupt 0) := by decide

theorem test_decode_strStop : decode [0x31000000] = .ok (.strStop .polling 0) := by decide

theorem test_decode_strRead : decode [0x32FF000A] = .ok (.strRead 0xFF 10) := by decide

theorem test_decode_getMs : decode [0x40000000] = .ok .getMs := by decide

theorem test_decode_getUs : decode [0x41000000] = .ok .getUs := by decide

/-- R138: unknown opcode; reserved bits of a header, of E0 and of a block word. -/
theorem test_decode_rejects :
    decode [0x04000000] = .error (.unknownOpcode 0x04) ∧ decode [0x01000110] = .error (.reservedBits 0x01) ∧
    decode [0x31040000] = .error (.reservedBits 0x31) ∧
    decode [0x30100018, 0x000A6100, 0x00000002] = .error (.reservedBits 0x30) ∧
    decode [0x30100018, 0x000A6000, 0x00010002] = .error (.reservedBits 0x30) := by decide

/-- The word number of two words: the second word is bits 63:32. -/
theorem test_decodeTableWord : decodeTableWord 64 0x000003E811010000 = some (.tmrStart 1 false 1000) := by decide

/-! ## One step of each command: the examples of the rules -/

theorem test_busCfg : answer (exec (.busCfg i2c0 1 1) State.reset) = some [0x01000000] ∧
    answer (exec (.busCfg i2c0 1 1) busUp) = some [0x01F10000] := by decide

theorem test_busCfgw : answer (exec (.busCfgw spi1 2 true 0) State.reset) = some [0x02F60000] ∧
    answer (exec (.busCfgw { kind := .spi, idx := 0 } 2 true 0) State.reset) = some [0x02000000] := by decide

theorem test_busDecfg : answer (exec (.busDecfg i2c0) busUp) = some [0x03000000] ∧
    answer (exec (.busDecfg i2c0) State.reset) = some [0x03F50000] ∧
    answer (exec (.busDecfg i2c0) polling) = some [0x03FF0000] := by decide

theorem test_tmrCfg : answer (exec (.tmrCfg 1 0x5A) State.reset) = some [0x10000000] ∧
    answer (exec (.tmrCfg 4 0) State.reset) = some [0x10ED0000] := by decide

theorem test_tmrStart : answer (exec (.tmrStart 1 false 1000) polling) = some [0x11000000] ∧
    answer (exec (.tmrStart 3 false 1000) polling) = some [0x11ED0000] ∧
    answer (exec (.tmrStart 1 false 0) polling) = some [0x11EE0000] := by decide

theorem test_tmrStop : holds (exec (.tmrStop 0) ticking) (fun t =>
    decide ((t.timer 0).state = .stopped ∧ (t.timer 0).target = .stream ∧ t.trigq = [] ∧ t.eng.armed = true)) = true := by
  decide

theorem test_tmrReset : holds (exec (.tmrReset 0) ticking) (fun t =>
    decide ((t.timer 0).cnt = 0 ∧ (t.timer 0).state = .running ∧ t.trigq = [fire])) = true := by decide

theorem test_intAttach : answer (exec (.intAttach 5 .risingEdge 7) State.reset) = some [0x20000000] ∧
    answer (exec (.intAttach 32 .risingEdge 0) State.reset) = some [0x20FF0000] := by decide

theorem test_intDetach : answer (exec (.intDetach 5) State.reset) = some [0x21000000] ∧
    holds (exec (.intDetach 5) edges) (fun t => !(t.binding 5).valid && (t.binding 31).valid) = true := by decide

theorem test_strCfg :
    answer (exec (.strCfg 0 i2c0 0x18 10 .milliseconds true false .onChange 0 [{ reg := 0, cnt := 2 }]) busUp) =
      some [0x30000000] ∧
    answer (exec (.strCfg 0 i2c0 0x18 10 .milliseconds true false .onChange 0 [{ reg := 0, cnt := 2 }]) State.reset) =
      some [0x30EF0000] := by decide

/-- R210: total = REC_CAP - 7 with TS_EN = 1 is rejected, total = REC_CAP with TS_EN = 0 is accepted. -/
theorem test_strCfg_record_size :
    answer (exec (.strCfg 0 i2c0 0 1 .microseconds true false .onChange 0 [{ reg := 0, cnt := 57 }]) busUp) =
      some [0x30EF0000] ∧
    answer (exec (.strCfg 0 i2c0 0 1 .microseconds false false .onChange 0 [{ reg := 0, cnt := 64 }]) busUp) =
      some [0x30000000] := by decide

/-- R212 and the periods of the example of R251: 10 ms and 25 ms give the base 5000 and the dividers 2 and 5. -/
theorem test_strStart_polling :
    holds (exec (.strStart .polling 3) { stored with ch := [chan0, { chan0 with period := 25 }, chan1, Channel.reset] })
      (fun t => decide ((t.timer 0).timeout = 5000 ∧ (t.channel 0).div = 2 ∧ (t.channel 1).div = 5 ∧
        (t.channel 2).active = false)) = true ∧
    answer (exec (.strStart .polling 3) State.reset) = some [0x31FF0000] := by decide

/-- R214: channels of different policies on one pin are bound ON_CHANGE. -/
theorem test_strStart_interrupt : holds (exec (.strStart .interrupt 0) stored) (fun t =>
    decide (t.binding 5 = { valid := true, policy := .onChange, target := .stream } ∧ t.eng.armed = true ∧
      (t.channel 1).active = true ∧ (t.channel 0).active = false)) = true := by decide

theorem test_strStop : holds (exec (.strStop .interrupt 9) ticking) (fun t =>
    decide ((t.timer 0).state = .stopped ∧ t.trigq = [] ∧ t.eng.armed = false ∧ (t.channel 0).active = false ∧
      (t.channel 0).valid = true)) = true := by decide

theorem test_strRead : answer (exec (.strRead 9 1) State.reset) = some [0x32FF0000] ∧
    holds (exec (.strRead 0 10) State.reset) (fun t => t.rd.busy && decide (t.rd.left = 10)) = true := by decide

theorem test_getMs : answer (exec .getMs { State.reset with us := 31000 }) = some [0x40000000, 0x1F] := by decide

theorem test_getUs : answer (exec .getUs { State.reset with us := 0x100000002 }) = some [0x41000000, 2, 1] := by decide

/-! ## One step of the machine -/

theorem test_step_runs_fetched : answer (step (State.reset.withFetchWord 32 0x40000000)) = some [0x40000000, 0] := by
  decide

/-- R138: an illegal frame is answered with E_NOT_SUPPORTED (-7 = 0xF9). -/
theorem test_step_illegal : answer (step (State.reset.withFetchWord 32 0x77000000)) = some [0x77F90000] := by decide

/-- R10, U17: the port accepts the word that the frame lacks and not the next command's; a read in progress accepts
none. -/
theorem test_port_accepts_one_frame :
    portAccept [0x11010000] [0x000003E8, 0x40000000] = [0x11010000, 0x000003E8] ∧
    holds (agentStep (.host [0x40000000]) { State.reset with
      rd := { busy := true, filter := 0xFF, left := 0, count := 0, out := [] } }) (fun t =>
      decide (t.cmdPort = [] ∧ t.rsp = [[0x32000000, 0, 0]])) = true := by decide

/-- The example of R255: channel 0, data 12 34, ts 11000. -/
theorem test_dispatch_pushes_record : holds (dispatchStep ticking) (fun t =>
    decide (t.ring.view 4096 = some [[0x00, 0x02, 0x0A, 0x12, 0x34, 0xF8, 0x2A, 0, 0, 0, 0, 0, 0]] ∧
      (t.channel 0).produced = 1 ∧ t.trigq = [])) = true := by decide

/-- R254: a failed read marks the record and fills it with zeros. -/
theorem test_dispatch_marks_error : holds (dispatchStep { ticking with busScript := [.fail] }) (fun t =>
    decide (t.ring.view 4096 = some [[0x00, 0x03, 0x0A, 0, 0, 0xF8, 0x2A, 0, 0, 0, 0, 0, 0]])) = true := by decide

/-- R285, R290: two timers that fire together are latched in ascending order with the new US. -/
theorem test_usTick : (usTick polling).trigq =
    [{ src := .timer 0, val := false, ts := 1 }, { src := .timer 3, val := false, ts := 1 }] ∧
    ((usTick polling).timer 3).state = .stopped ∧ ((usTick polling).timer 0).cnt = 0 := by decide

/-- R286: a rising edge of pin 5 is latched with the level after it. -/
theorem test_pinChange : (pinChange 5 true edges).trigq = [{ src := .pin 5, val := true, ts := 0 }] ∧
    (pinChange 5 false edges).trigq = [] := by decide

/-- R217: the end of a read that took one record reports COUNT 1 and the packed bytes. -/
theorem test_read_end :
    answer (foregroundStep { State.reset with
      rd := { busy := true, filter := 0xFF, left := 0, count := 1, out := [0x01, 0x00, 0x02, 0xAA, 0xBB] } }) =
      some [0x32000001, 0, 5, 0xAA020001, 0x000000BB] := by decide

/-- R88: a record that wraps is popped whole. -/
theorem test_popOne : popOne 32 1 smallRing =
    .ok (some [0x01, 0x00, 0x02, 0xAA, 0xBB], { smallRing with
      buf := [(0, 0x02), (1, 0xAA), (2, 0xBB), (30, 0x01), (31, 0x80)], head := 3, used := 0 }) := by decide

/-! ## Witnesses: concrete states and operands that meet the hypotheses of each statement, clause by clause -/

theorem reset_shaped : State.reset.Shaped := by decide

theorem busUp_shaped : busUp.Shaped := by decide

theorem allBusesUp_shaped : allBusesUp.Shaped := by decide

theorem stored_shaped : stored.Shaped := by decide

theorem polling_shaped : polling.Shaped := by decide

theorem edges_shaped : edges.Shaped := by decide

theorem ticking_shaped : ticking.Shaped := by decide

theorem ticking_descriptors : ticking.DescriptorsOk := by decide

theorem ticking_engine : ticking.EngineOk := ⟨by decide, by decide, by decide, by decide, by decide, by decide⟩

theorem ticking_ring : ticking.ring.Ok ticking.cfg := by decide

/-- EveryStepKeepsInvariants, StepKeepsShape, StepKeepsDescriptors, StepKeepsEngine, StepKeepsRing: an armed engine with
a pending tick, whose step answers a next state. -/
theorem witness_EveryStepKeepsInvariants : ticking.Inv ∧ ∃ t, step ticking = .next t :=
  ⟨⟨ticking_shaped, ticking_descriptors, ticking_engine, by decide, by decide, ticking_ring, by decide⟩,
    next_exists (by decide)⟩

theorem witness_reset_inv : State.reset.Inv :=
  ⟨reset_shaped, by decide, ⟨by decide, by decide, by decide, by decide, by decide, by decide⟩, by decide, by decide,
    by decide, by decide⟩

/-- A state whose next step runs a frame, and one with the beginning of a frame at the port. -/
theorem witness_StepKeepsQueue :
    (let s := State.reset.withFetchWord 32 0x40000000
     s.Shaped ∧ s.QueueOk ∧ s.PromptOk ∧ s.PortOk ∧ ∃ t, step s = .next t) ∧
    (let s : State := { State.reset with sched := [.host [0x000003E8, 0x40000000]], cmdPort := [0x11010000] }
     s.PortOk ∧ ∃ t, step s = .next t) :=
  ⟨⟨by decide, by decide, by decide, by decide, next_exists (by decide)⟩, by decide, next_exists (by decide)⟩

theorem witness_StepKeepsMemoryCanonical : { ticking with ring := smallRing }.ring.buf.wf ∧
    ∃ t, step { ticking with ring := smallRing, sched := [.usTick], trigq := [] } = .next t := ⟨by decide, next_exists (by decide)⟩

theorem witness_DecodeInvertsEncode :
    (Instr.strCfg 15 i2c2 0xFF 0xFFFF .unrecognised3 true true .reserved 0xFF
      (List.replicate 15 { reg := 0xFF, cnt := 0xFF })).wf = true := by decide

theorem witness_EncodeInvertsDecode : decode [0x31030000] = .ok (.strStart .interrupt 0) := by decide

theorem witness_HeaderSelectsOneRow : decode (0x01000101 :: []) = .ok (.busCfg i2c0 1 1) ∧
    ∀ j : Instr, selectsRow 0x01000110 j = false := 
  ⟨by decide, no_row (by decide)⟩

/-- A legal frame, an illegal header, illegal extension words, an unknown opcode. -/
theorem witness_IllegalFrameNotSupported :
    (([0x000A6000, 0x00000002] : List Word).length + 1 = frameWords 0x30100018 ∧
      selectsRow 0x30100018 (.strCfg 0 i2c0 0 1 .microseconds false false .onChange 0 []) = true ∧
      extensionLegal 0x30100018 [0x000A6000, 0x00000002] = true) ∧
    (([] : List Word).length + 1 = frameWords 0x01000110 ∧ ∀ j : Instr, selectsRow 0x01000110 j = false) ∧
    (([0x000A6100, 0x00000002] : List Word).length + 1 = frameWords 0x30100018 ∧
      extensionLegal 0x30100018 [0x000A6100, 0x00000002] = false) ∧
    ∀ j : Instr, opcOf 0x77000000 ≠ opcOf j.rowMatch :=
  ⟨by decide, ⟨by decide, no_row (by decide)⟩, by decide,
    no_opc (by decide)⟩

/-- A legal frame, an illegal TMR_START and an illegal STR_CFG of three words each as long as R121 says (vectors X7 and
X12), and an unknown OPC. -/
theorem witness_FramesTakenWhole : ((Instr.tmrStart 1 false 1000).wf = true ∧
      1 < (encode (.tmrStart 1 false 1000)).length) ∧
    (([0x000003E8] : List Word).length + 1 = frameWords 0x11010002 ∧ 1 < frameWords 0x11010002) ∧
    (([0x000A6100, 0x00000002] : List Word).length + 1 = frameWords 0x30100018 ∧ 1 ≤ 2 ∧ 2 < frameWords 0x30100018) ∧
    ([] : List Word).length + 1 = frameWords 0x77000000 := by decide

/-- A frame that decodes, whose second word comes with a word of the next command; one that does not decode; and one
whose words are not all there. -/
theorem witness_StepRunsDecodedCommand :
    let s : State := { State.reset with sched := [.host [0x000003E8, 0x40000000]], cmdPort := [0x11010000] }
    let r : State := { State.reset with sched := [.host [0x77000000]] }
    let u : State := { State.reset with sched := [.host [0x11010000]] }
    (s.mustDispatch = false ∧ s.nextAgent = .host [0x000003E8, 0x40000000] ∧ s.rd.busy = false ∧
      splitFrame (portAccept s.cmdPort [0x000003E8, 0x40000000]) = some ([0x11010000, 0x000003E8], []) ∧
      decode [0x11010000, 0x000003E8] = .ok (.tmrStart 1 false 1000)) ∧
    (r.mustDispatch = false ∧ r.nextAgent = .host [0x77000000] ∧ r.rd.busy = false ∧
      splitFrame (portAccept r.cmdPort [0x77000000]) = some ([0x77000000], []) ∧
      decode [0x77000000] = .error (.unknownOpcode 0x77)) ∧
    (u.mustDispatch = false ∧ u.nextAgent = .host [0x11010000] ∧ u.rd.busy = false ∧
      splitFrame (portAccept u.cmdPort [0x11010000]) = none) := by decide

theorem witness_PromptDispatchesFirst :
    (let s : State := { ticking with sched := [.usTick] }
     s.cfg.dispatchModel = .prompt ∧ s.trigq ≠ [] ∧ s.nextAgent ≠ .reset) ∧
    (let s : State := { ticking with sched := [.reset] }
     s.cfg.dispatchModel = .prompt ∧ s.trigq ≠ [] ∧ s.nextAgent = .reset) ∧
    (let s : State := { ticking with sched := [.usTick], cfg := { Params.ref with dispatchModel := .fair } }
     s.cfg.dispatchModel = .fair ∧ s.trigq ≠ []) ∧ State.reset.trigq = [] := by decide

/-- An execution under FAIR in which the one pending trigger is dispatched at the first step. -/
def fairRun (n : Nat) : State :=
  { State.reset with
    cfg := { Params.ref with dispatchModel := .fair }
    trigq := match n with
      | 0 => [fire]
      | _ + 1 => [] }

theorem witness_PromptDispatchesFirst_fair :
    Execution (fun _ => .dispatch) fairRun ∧ WeaklyFair (fun _ => .dispatch) fairRun ∧ fire ∈ (fairRun 0).trigq :=
  ⟨fun n => by cases n <;> rfl, fun n _ => ⟨n, Nat.le_refl n, .inr rfl⟩, by decide⟩

/-- A rejected command. -/
theorem witness_RejectionChangesNothing :
    (∃ t, exec (.tmrCfg 4 0) State.reset = .next t ∧ decide (t.rsp = State.reset.rsp ++ [[0x10ED0000]]) = true) ∧
      (0x10ED0000 : Word).extractLsb' 16 8 ≠ State.reset.cfg.statusCode.success := ⟨next_of (by decide), by decide⟩

theorem witness_CommandsLeaveRingAndTime : ∃ t, exec (.busCfg i2c0 1 1) State.reset = .next t :=
  next_exists (by decide)

theorem witness_BusCfgConfigures :
    (State.reset.Shaped ∧ busValid State.reset.cfg i2c2 = false) ∧
    (busUp.Shaped ∧ busValid busUp.cfg i2c0 = true ∧ busUp.busConfigured i2c0 = true) ∧
    (State.reset.Shaped ∧ busValid State.reset.cfg i2c0 = true ∧ State.reset.busConfigured i2c0 = false ∧
      i2c0.kind = .i2c ∧ 2 < (3 : BitVec 4).toNat ∧ (2 : BitVec 4).toNat ≤ 2) ∧
    (State.reset.Shaped ∧ busValid State.reset.cfg spi1 = true ∧ State.reset.busConfigured spi1 = false ∧
      spi1.kind = .spi) :=
  ⟨⟨reset_shaped, by decide⟩, ⟨busUp_shaped, by decide⟩, ⟨reset_shaped, by decide⟩, ⟨reset_shaped, by decide⟩⟩

theorem witness_BusCfgwConfiguresSpi :
    (State.reset.Shaped ∧ i2c0.kind = .i2c ∧ State.reset.cfg.nSpi ≤ ({ kind := .spi, idx := 2 } : BusRef).idx.toNat) ∧
    (allBusesUp.Shaped ∧ spi1.kind = .spi ∧ spi1.idx.toNat < allBusesUp.cfg.nSpi ∧
      (allBusesUp.spiBus spi1.idx.toNat).configured = true) ∧
    (State.reset.Shaped ∧ spi1.kind = .spi ∧ spi1.idx.toNat < State.reset.cfg.nSpi ∧
      (State.reset.spiBus spi1.idx.toNat).configured = false ∧
      State.reset.cfg.spi16Ok[spi1.idx.toNat]? = some false) ∧
    (0 < State.reset.cfg.nSpi ∧ (State.reset.spiBus 0).configured = false ∧ State.reset.cfg.spi16Ok[0]? = some true) :=
  ⟨⟨reset_shaped, by decide⟩, ⟨allBusesUp_shaped, by decide⟩, ⟨reset_shaped, by decide⟩, by decide⟩

theorem witness_BusDecfgClearsFlag :
    (State.reset.Shaped ∧ busValid State.reset.cfg i2c2 = false) ∧
    (State.reset.Shaped ∧ busValid State.reset.cfg i2c0 = true ∧ State.reset.busConfigured i2c0 = false) ∧
    (polling.Shaped ∧ busValid polling.cfg i2c0 = true ∧ polling.busConfigured i2c0 = true ∧
      (polling.eng.armed = true ∧ ∃ d ∈ polling.ch, d.valid = true ∧ d.mode = polling.eng.amode ∧ d.bus = i2c0)) ∧
    (stored.Shaped ∧ busValid stored.cfg i2c0 = true ∧ stored.busConfigured i2c0 = true ∧
      ¬(stored.eng.armed = true ∧ ∃ d ∈ stored.ch, d.valid = true ∧ d.mode = stored.eng.amode ∧ d.bus = i2c0)) :=
  ⟨⟨reset_shaped, by decide⟩, ⟨reset_shaped, by decide⟩, ⟨polling_shaped, by decide⟩, ⟨stored_shaped, by decide⟩⟩

/-- Instances 4 (one past the last), 0 (RUNNING), 1 (READY) and 3 (the last, RUNNING). -/
theorem witness_timers : polling.Shaped ∧ polling.cfg.nTimers ≤ (4 : Byte).toNat ∧ (3 : Byte).toNat < polling.cfg.nTimers ∧
    (polling.timer 0).state = .running ∧ (polling.timer 1).state = .ready ∧ (polling.timer 2).state = .stopped ∧
    (polling.timer 3).state = .running := ⟨polling_shaped, by decide⟩

theorem witness_TmrCfgBindsHandler : polling.Shaped ∧ polling.cfg.nTimers ≤ (4 : Byte).toNat ∧
    ((3 : Byte).toNat < polling.cfg.nTimers ∧ (polling.timer (3 : Byte).toNat).state = .running) ∧
    ((2 : Byte).toNat < polling.cfg.nTimers ∧ (polling.timer (2 : Byte).toNat).state ≠ .running) :=
  ⟨polling_shaped, by decide⟩

theorem witness_TmrStartArmsTimer : polling.Shaped ∧ polling.cfg.nTimers ≤ (4 : Byte).toNat ∧
    ((3 : Byte).toNat < polling.cfg.nTimers ∧ (polling.timer (3 : Byte).toNat).state ≠ .ready) ∧
    ((1 : Byte).toNat < polling.cfg.nTimers ∧ (polling.timer (1 : Byte).toNat).state = .ready ∧
      (0 : BitVec 32) = 0 ∧ (1 : BitVec 32) ≠ 0) := ⟨polling_shaped, by decide⟩

theorem witness_TmrStopDisarmsTimer : ticking.Shaped ∧ ticking.cfg.nTimers ≤ (4 : Byte).toNat ∧
    (0 : Byte).toNat < ticking.cfg.nTimers ∧ ticking.trigq ≠ [] := ⟨ticking_shaped, by decide⟩

theorem witness_TmrResetRestartsCount : polling.Shaped ∧ polling.cfg.nTimers ≤ (4 : Byte).toNat ∧
    (0 : Byte).toNat < polling.cfg.nTimers ∧ (polling.timer (0 : Byte).toNat).cnt ≠ 0 := ⟨polling_shaped, by decide⟩

theorem witness_GetMsAnswersMilliseconds : State.reset.Shaped := reset_shaped

theorem witness_GetUsAnswersCounter : State.reset.Shaped := reset_shaped

theorem witness_IntAttachReplacesBinding : edges.Shaped ∧ edges.cfg.nPins ≤ (32 : Byte).toNat ∧
    ((31 : Byte).toNat < edges.cfg.nPins ∧ Policy.fallingEdge ≠ .reserved) := ⟨edges_shaped, by decide⟩

/-- Pin 32 does not exist, pin 31 has a binding, pin 0 has none. -/
theorem witness_IntDetachRemovesBinding : edges.Shaped ∧ edges.cfg.nPins ≤ (32 : Byte).toNat ∧
    ((31 : Byte).toNat < edges.cfg.nPins ∧ (edges.binding (31 : Byte).toNat).valid = true) ∧
    ((0 : Byte).toNat < edges.cfg.nPins ∧ (edges.binding (0 : Byte).toNat).valid = false) := ⟨edges_shaped, by decide⟩

theorem witness_StrCfgStoresDescriptor :
    (polling.Shaped ∧ polling.eng.armed = true ∧ polling.cfg.nChannels ≤ (4 : BitVec 4).toNat) ∧
    (busUp.Shaped ∧ busUp.eng.armed = false ∧ (3 : BitVec 4).toNat < busUp.cfg.nChannels ∧
      busValid busUp.cfg i2c2 = false) ∧
    (State.reset.Shaped ∧ State.reset.eng.armed = false ∧ (3 : BitVec 4).toNat < State.reset.cfg.nChannels ∧
      busValid State.reset.cfg i2c0 = true ∧ State.reset.busConfigured i2c0 = false) ∧
    (busUp.Shaped ∧ busUp.eng.armed = false ∧ (3 : BitVec 4).toNat < busUp.cfg.nChannels ∧
      busValid busUp.cfg i2c0 = true ∧ busUp.busConfigured i2c0 = true ∧
      blockTotal [{ reg := 0, cnt := 56 }] + 8 = busUp.cfg.recCap ∧ 31 < busUp.cfg.nPins ∧
      Policy.onChange ≠ .reserved) :=
  ⟨⟨polling_shaped, by decide⟩, ⟨busUp_shaped, by decide⟩, ⟨reset_shaped, by decide⟩, ⟨busUp_shaped, by decide⟩⟩

/-- An armed engine; no matching channel; channel 0 the first with an unconfigured bus; STREAM_TIMER RUNNING. -/
theorem witness_StrStartRejections :
    polling.eng.armed = true ∧ (∀ d ∈ State.reset.ch, ¬(d.valid = true ∧ d.mode = .polling)) ∧
    (storedNoBus.eng.armed = false ∧ 1 < storedNoBus.ch.length ∧ (storedNoBus.channel 1).valid = true ∧
      (storedNoBus.channel 1).mode = .interrupt ∧ storedNoBus.busConfigured (storedNoBus.channel 1).bus = false ∧
      ∀ b, b < 1 → (storedNoBus.channel b).valid = true → (storedNoBus.channel b).mode = .interrupt →
        storedNoBus.busConfigured (storedNoBus.channel b).bus = true) ∧
    (let s : State := { stored with tmr := polling.tmr }
     s.eng.armed = false ∧ (∃ d ∈ s.ch, d.valid = true ∧ d.mode = .polling) ∧
      (∀ d ∈ s.ch, d.valid = true → d.mode = .polling → s.busConfigured d.bus = true) ∧
      (s.timer s.cfg.streamTimer).state = .running) := by decide

theorem witness_StrStartArmsPolling : stored.Shaped ∧ stored.eng.armed = false ∧
    (∃ d ∈ stored.ch, d.valid = true ∧ d.mode = .polling) ∧
    (∀ d ∈ stored.ch, d.valid = true → d.mode = .polling → stored.busConfigured d.bus = true) ∧
    (stored.timer stored.cfg.streamTimer).state ≠ .running := ⟨stored_shaped, by decide⟩

/-- Two channels on pin 5 whose policies differ; with `stored` cut to one of them, they agree. -/
theorem witness_StrStartArmsInterrupt : (stored.Shaped ∧ stored.eng.armed = false ∧
    (∃ d ∈ stored.ch, d.valid = true ∧ d.mode = .interrupt) ∧
    (∀ d ∈ stored.ch, d.valid = true → d.mode = .interrupt → stored.busConfigured d.bus = true) ∧
    (∃ d ∈ stored.ch, ∃ e ∈ stored.ch, d.valid = true ∧ d.mode = .interrupt ∧ d.intPin.toNat = 5 ∧ e.valid = true ∧
      e.mode = .interrupt ∧ e.intPin.toNat = 5 ∧ d.intPol ≠ e.intPol)) ∧
    (let s : State := { stored with ch := [chan0, chan1, chan1, Channel.reset] }
     s.Shaped ∧ ∀ d ∈ s.ch, d.valid = true → d.mode = .interrupt → d.intPin.toNat = 5 → d.intPol = .risingEdge) :=
  ⟨⟨stored_shaped, by decide⟩, ⟨by decide, by decide⟩⟩

theorem witness_StrStopDisarms : (stored.Shaped ∧ stored.eng.armed = false) ∧
    (ticking.Shaped ∧ ticking.eng.armed = true ∧ ticking.eng.amode = .polling) ∧
    (edges.Shaped ∧ edges.eng.armed = true ∧ edges.eng.amode = .interrupt) :=
  ⟨⟨stored_shaped, by decide⟩, ⟨ticking_shaped, by decide⟩, ⟨edges_shaped, by decide⟩⟩

theorem witness_StrReadBegins : ((4 : Byte) ≠ 0xFF ∧ State.reset.cfg.nChannels ≤ (4 : Byte).toNat) ∧
    (3 : Byte).toNat < State.reset.cfg.nChannels := by decide

/-- SMALL with the wrapped record in the ring. -/
theorem witness_small_ring : Params.small.Ok ∧ smallRing.Ok Params.small ∧
    smallRing.view 32 = some [[0x01, 0x00, 0x02, 0xAA, 0xBB]] := by decide

/-- A read in progress over SMALL, with one record to take. -/
theorem witness_ReadPopsOneRecord :
    let s : State := { State.resetWith Params.small with
      ring := smallRing, rd := { busy := true, filter := 0xFF, left := 1, count := 0, out := [] } }
    s.Shaped ∧ s.ring.Ok s.cfg ∧ s.rd.busy = true ∧ s.rd.left ≠ 0 := ⟨by decide, by decide, by decide⟩

theorem witness_ReadEndReportsOverflow :
    (let s : State := { State.reset with rd := { busy := true, filter := 0xFF, left := 0, count := 0, out := [] } }
     s.Shaped ∧ s.rd.busy = true ∧ s.rd.left = 0) ∧
    ((4 : Byte) ≠ 0xFF ∧ State.reset.cfg.nChannels ≤ (4 : Byte).toNat ∧
      ∃ t, exec (.strRead 4 1) State.reset = .next t) := 
  ⟨⟨by decide, by decide⟩, by decide, by decide, next_exists (by decide)⟩

theorem witness_RingWriteReadsBack : 31 < 32 ∧ (List.replicate 32 (0xAA : Byte)).length ≤ 32 := by decide

theorem witness_PushRefinesAbstractPush :
    recWellFormed Params.small [0x00, 0x01, 0x01, 0x77] = true ∧ recConsumed [0x00, 0x01, 0x01, 0x77] = false := by
  decide

theorem witness_PopDeliversOldestMatch : ∃ out, popOne Params.small.bufCap 0xFF smallRing = .ok out :=
  ok_of (by decide)

theorem witness_RecordLayout : 15 < 16 ∧ (List.replicate 247 (0 : Byte)).length + 8 ≤ 255 :=
  ⟨by decide, by rw [List.length_replicate]⟩

theorem witness_DueSetPolling : ticking.Shaped ∧ ticking.eng.amode = .polling ∧
    fire.src = .timer ticking.cfg.streamTimer := ⟨ticking_shaped, by decide⟩

theorem witness_DueSetInterrupt : edges.DescriptorsOk ∧ edges.Shaped ∧ edges.eng.amode = .interrupt ∧
    edge5.src = .pin 5 := ⟨by decide, edges_shaped, by decide⟩

/-- Channel 3 is the last; in `polling` channel 0 is active, in `stored` with a cap none is. -/
theorem witness_CountThenAutoStop : (polling.Shaped ∧ 3 < polling.cfg.nChannels) ∧
    (let s : State := { stored with eng := polling.eng }
     s.Shaped ∧ s.eng.cap ≠ 0 ∧ ∀ c, c < s.cfg.nChannels → (s.channel c).valid = true →
      (s.channel c).mode = s.eng.amode → (s.channel c).active = false) ∧
    (∃ c, c < polling.cfg.nChannels ∧ (polling.channel c).valid = true ∧ (polling.channel c).mode = polling.eng.amode ∧
      (polling.channel c).active = true) :=
  ⟨⟨polling_shaped, by decide⟩, ⟨by decide, by decide⟩, by decide⟩

/-- A tick of an armed engine that stays armed, and one that reaches the cap and disarms it. -/
theorem witness_TickCountsOnePerDueChannel : (ticking.Shaped ∧ ticking.eng.armed = true ∧
      (∃ s1, dueSet fire ticking = .ok ([0], s1)) ∧
      okHolds (tickSequence fire ticking) (fun t => t.eng.armed) = true) ∧
    (capped.Shaped ∧ capped.eng.armed = true ∧ (∃ s1, dueSet fire capped = .ok ([0], s1)) ∧
      okHolds (tickSequence fire capped) (fun t => !t.eng.armed) = true) :=
  ⟨⟨ticking_shaped, by decide, due_of (by decide), by decide⟩, by decide, by decide, due_of (by decide), by decide⟩

/-- A tick with room for its record. -/
theorem witness_TickAppendsDueRecords : ticking.Shaped ∧ ticking.DescriptorsOk ∧ ticking.ring.Ok ticking.cfg ∧
    (∃ s1, dueSet fire ticking = .ok ([0], s1)) ∧ ticking.ring.view ticking.cfg.bufCap = some [] ∧
    viewUsed [] + ([0].map fun c => 3 + blockTotal (ticking.channel c).blocks + tsLen (ticking.channel c).tsEn).sum ≤
      ticking.cfg.bufCap :=
  ⟨ticking_shaped, ticking_descriptors, ticking_ring, due_of (by decide), by decide, by decide⟩

/-- What a fetch of two blocks leaves when the second fails, and the record it makes: the form of the conclusion. -/
theorem test_record_of_failed_fetch :
    let d : Channel := { chan0 with blocks := [{ reg := 0, cnt := 1 }, { reg := 4, cnt := 2 }], tsEn := false }
    let log : List BusRd := [{ bus := i2c0, dev := 0x18, reg := 0, n := 1, result := .ok [0x12] },
      { bus := i2c0, dev := 0x18, reg := 4, n := 2, result := .fail }]
    fetchLogged d log ∧ (log.flatMap fun e => answerBytes e.result) = [0x12] ∧
      (sample 0 0 { ticking with ch := [d], busScript := [.ok [0x12], .fail] }).1 = [0x00, 0x01, 0x03, 0x12, 0, 0] := by
  decide

theorem witness_HandlerFrame : (∃ t, runHandler fire ticking = .next t) ∧
    holds (runHandler fire capped) (fun t => !t.eng.armed && decide (t.trigq = [])) = true :=
  ⟨next_exists (by decide), by decide⟩

/-- In `polling` the next UsTick makes two timers fire, one of them one-shot. -/
theorem witness_UsTickAdvancesTimers : polling.Shaped ∧ polling.QueueOk ∧ polling.firing = [0, 3] :=
  ⟨polling_shaped, by decide, by decide⟩

theorem witness_PinChangeLatchesEdges : edges.Shaped ∧ 31 < edges.cfg.nPins ∧ false = edges.pinLevel 31 ∧
    true ≠ edges.pinLevel 31 ∧ (edges.binding 31).valid = true ∧ (edges.binding 31).policy = .risingEdge :=
  ⟨edges_shaped, by decide⟩

/-- A host timer's trigger, a host pin's, the engine's timer's and pin's, and triggers of sources with no handler. -/
theorem witness_DispatchRunsHandler :
    ((polling.timer 3).target = .ext 9 ∧ (polling.timer 2).target = .none ∧ (polling.timer 0).target = .stream ∧
      (edges.binding 31).valid = true ∧ (edges.binding 31).target = .ext 8 ∧ (edges.binding 0).valid = false ∧
      (edges.binding 5).valid = true ∧ (edges.binding 5).target = .stream) ∧
    (∃ t, tickSequence fire { ticking with trigq := [] } = .ok t) ∧
    ∃ t, tickSequence edge5 { edges with busScript := [.fail] } = .ok t :=
  ⟨by decide, ok_of (by decide), ok_of (by decide)⟩

theorem witness_ResetMeetsInvariants : Params.small.Ok := by decide

theorem witness_ArmedDescriptorsFixed :
    let s : State := { edges with sched := [.pinChange 5 true] }
    s.Shaped ∧ s.eng.armed = true ∧ (∃ t, step s = .next t) ∧ s.mustDispatch = false ∧ s.nextAgent ≠ .reset ∧
      ∃ d ∈ s.ch, d.valid = true ∧ d.mode = s.eng.amode ∧ s.busConfigured d.bus = true :=
  ⟨by decide, by decide, next_exists (by decide), by decide, by decide, by decide⟩

theorem witness_NoReturnToUnconfigured :
    let s : State := { stored with sched := [.usTick] }
    s.Shaped ∧ (∃ t, step s = .next t) ∧ s.mustDispatch = false ∧ s.nextAgent ≠ .reset ∧
      (s.channel 2).valid = true := ⟨by decide, next_exists (by decide), by decide⟩

theorem witness_OnlyTickAdvancesUs :
    (∃ t, step { State.reset with sched := [.usTick] } = .next t ∧ decide (t.us ≠ State.reset.us) = true) ∧
    ∃ t, step { State.reset with us := 7, sched := [.reset] } = .next t ∧
      decide (t.us ≠ (7 : BitVec 64)) = true :=
  ⟨next_of (by decide), next_of (by decide)⟩

theorem witness_StickyFlags :
    (∃ t, step { State.reset with
        ring := { State.reset.ring with ovf := true }, sched := [.host []]
        rd := { busy := true, filter := 0xFF, left := 0, count := 0, out := [] } } = .next t ∧
        decide (t.ring.ovf = false) = true) ∧
    ∃ t, step { State.reset with trigOverrun := true, sched := [.reset] } = .next t ∧
      decide (t.trigOverrun = false) = true :=
  ⟨next_of (by decide), next_of (by decide)⟩

end Sys2Proof.Tests
end

section
/-! SUPPORT. What each operation keeps of the parameters and of the sizes of the tables (00_scope.md R5). -/

namespace Sys2Proof.Machine

/-- `t` has the parameters of `s`, and tables of the same sizes (R5). -/
structure SameShape (s t : State) : Prop where
  cfg : t.cfg = s.cfg
  i2c : t.i2c.length = s.i2c.length
  spi : t.spi.length = s.spi.length
  tmr : t.tmr.length = s.tmr.length
  pinLvl : t.pinLvl.length = s.pinLvl.length
  bind : t.bind.length = s.bind.length
  ch : t.ch.length = s.ch.length

namespace SameShape

theorem refl (s : State) : SameShape s s := ⟨rfl, rfl, rfl, rfl, rfl, rfl, rfl⟩

theorem trans {s t u : State} (hst : SameShape s t) (htu : SameShape t u) : SameShape s u where
  cfg := htu.cfg.trans hst.cfg
  i2c := htu.i2c.trans hst.i2c
  spi := htu.spi.trans hst.spi
  tmr := htu.tmr.trans hst.tmr
  pinLvl := htu.pinLvl.trans hst.pinLvl
  bind := htu.bind.trans hst.bind
  ch := htu.ch.trans hst.ch

/-- Tables of the same sizes under the same parameters fit them as before. -/
theorem shaped {s t : State} (h : SameShape s t) (hs : s.Shaped) : t.Shaped := by
  unfold State.Shaped at *
  rwa [h.cfg, h.i2c, h.spi, h.tmr, h.pinLvl, h.bind, h.ch]

end SameShape

theorem setRing_sameShape (r : Ring) (s : State) : SameShape s (s.setRing r) := ⟨rfl, rfl, rfl, rfl, rfl, rfl, rfl⟩

theorem setRead_sameShape (r : ReadState) (s : State) : SameShape s (s.setRead r) := ⟨rfl, rfl, rfl, rfl, rfl, rfl, rfl⟩

theorem setCmdPort_sameShape (p : List Word) (s : State) : SameShape s { s with cmdPort := p } :=
  ⟨rfl, rfl, rfl, rfl, rfl, rfl, rfl⟩

theorem setTrigq_sameShape (q : List Trigger) (s : State) : SameShape s { s with trigq := q } :=
  ⟨rfl, rfl, rfl, rfl, rfl, rfl, rfl⟩

theorem emit_sameShape (e : Event) (s : State) : SameShape s (s.emit e) := ⟨rfl, rfl, rfl, rfl, rfl, rfl, rfl⟩

theorem respond_sameShape (opc : Byte) (st : Status) (n : BitVec 16) (p : List Word) (s : State) :
    SameShape s (s.respond opc st n p) := ⟨rfl, rfl, rfl, rfl, rfl, rfl, rfl⟩

theorem advance_sameShape (s : State) : SameShape s s.advance := by
  rw [advance_frame]
  exact ⟨rfl, rfl, rfl, rfl, rfl, rfl, rfl⟩

theorem acceptWords_sameShape (words : List Word) (s : State) : SameShape s (s.acceptWords words) := by
  cases hb : s.rd.busy with
  | true =>
    rw [acceptWords_busy words s hb]
    exact .refl s
  | false =>
    rw [acceptWords_idle words s hb]
    exact setCmdPort_sameShape _ s

theorem latch_sameShape (src : TrigSource) (val : Bool) (s : State) : SameShape s (s.latch src val) := by
  rw [latch_frame]
  exact ⟨rfl, rfl, rfl, rfl, rfl, rfl, rfl⟩

theorem setPinLevel_sameShape (p : Nat) (v : Bool) (s : State) : SameShape s (s.setPinLevel p v) :=
  ⟨rfl, rfl, rfl, rfl, List.length_set, rfl, rfl⟩

theorem setChannel_sameShape (c : Nat) (d : Channel) (s : State) : SameShape s (s.setChannel c d) :=
  ⟨rfl, rfl, rfl, rfl, rfl, rfl, List.length_set⟩

/-- `UsTick` counts in every timer entry and latches (R285). -/
theorem usTick_sameShape (s : State) : SameShape s (usTick s) := by
  unfold usTick
  rw [latchAll_frame]
  exact ⟨rfl, rfl, rfl, List.length_mapIdx, rfl, rfl, rfl⟩

theorem pinChange_sameShape (p : Nat) (v : Bool) (s : State) : SameShape s (pinChange p v s) := by
  unfold pinChange
  split_ifs
  · exact .refl s
  · exact .refl s
  · exact (setPinLevel_sameShape p v s).trans (latch_sameShape (.pin p) v _)
  · exact setPinLevel_sameShape p v s

end Sys2Proof.Machine
end

section
/-! SUPPORT. What a command can do (00_scope.md R12, 30_encoding.md R136, R139): answer a listed status and no more, have
its effect and answer SUCCESS, or begin a read. -/

namespace Sys2Proof.Machine

/-- The effect of an accepted command before its response: which fields it can write, and that the tables keep their
sizes. -/
structure CommandEffect (s e : State) : Prop where
  frame : e = { s with
    i2c := e.i2c, spi := e.spi, tmr := e.tmr, bind := e.bind, ch := e.ch, eng := e.eng, trigq := e.trigq,
    free := e.free }
  shape : SameShape s e

namespace CommandEffect

theorem refl (s : State) : CommandEffect s s := ⟨rfl, .refl s⟩

theorem trans {s t u : State} (hst : CommandEffect s t) (htu : CommandEffect t u) : CommandEffect s u where
  frame := by
    have h := htu.frame
    rw [hst.frame] at h
    exact h
  shape := hst.shape.trans htu.shape

end CommandEffect

theorem setI2cBus_effect (i : Nat) (b : I2cBus) (s : State) : CommandEffect s (s.setI2cBus i b) :=
  ⟨rfl, ⟨rfl, List.length_set, rfl, rfl, rfl, rfl, rfl⟩⟩

theorem setSpiBus_effect (i : Nat) (b : SpiBus) (s : State) : CommandEffect s (s.setSpiBus i b) :=
  ⟨rfl, ⟨rfl, rfl, List.length_set, rfl, rfl, rfl, rfl⟩⟩

theorem setTimer_effect (i : Nat) (x : Timer) (s : State) : CommandEffect s (s.setTimer i x) :=
  ⟨rfl, ⟨rfl, rfl, rfl, List.length_set, rfl, rfl, rfl⟩⟩

theorem setBinding_effect (p : Nat) (b : Binding) (s : State) : CommandEffect s (s.setBinding p b) :=
  ⟨rfl, ⟨rfl, rfl, rfl, rfl, rfl, List.length_set, rfl⟩⟩

theorem setChannel_effect (c : Nat) (d : Channel) (s : State) : CommandEffect s (s.setChannel c d) :=
  ⟨rfl, setChannel_sameShape c d s⟩

theorem drawFree_effect (s : State) : CommandEffect s s.drawFree := ⟨rfl, ⟨rfl, rfl, rfl, rfl, rfl, rfl, rfl⟩⟩

theorem purge_effect (src : TrigSource) (s : State) : CommandEffect s (s.purge src) := ⟨rfl, setTrigq_sameShape _ s⟩

theorem configureBus_effect (r : BusRef) (speed : Byte) (bmode : BitVec 4) (s : State) :
    CommandEffect s (s.configureBus r speed bmode) := by
  unfold State.configureBus
  split
  · exact setI2cBus_effect _ _ s
  · exact setSpiBus_effect _ _ s

theorem deconfigureBus_effect (r : BusRef) (s : State) : CommandEffect s (s.deconfigureBus r) := by
  unfold State.deconfigureBus
  split
  · exact (setI2cBus_effect _ _ s).trans (drawFree_effect _)
  · exact (setSpiBus_effect _ _ s).trans (drawFree_effect _)

theorem stopTimer_effect (i : Nat) (s : State) : CommandEffect s (s.stopTimer i) := by
  rcases stopTimer_cases i s with ⟨_, h⟩ | ⟨_, h⟩ <;> rw [h]
  · exact .refl s
  · exact (setTimer_effect i _ s).trans (drawFree_effect _)

theorem unbind_effect (p : Nat) (s : State) : CommandEffect s (s.unbind p) := by
  rcases unbind_cases p s with ⟨_, h⟩ | ⟨_, h⟩ <;> rw [h]
  · exact .refl s
  · exact (setBinding_effect p _ s).trans (drawFree_effect _)

theorem startPolling_effect (cap : BitVec 16) (s : State) : CommandEffect s (s.startPolling cap) :=
  ⟨rfl, ⟨rfl, rfl, rfl, List.length_set, rfl, rfl, List.length_map _⟩⟩

theorem startInterrupt_effect (cap : BitVec 16) (s : State) : CommandEffect s (s.startInterrupt cap) :=
  ⟨rfl, ⟨rfl, rfl, rfl, rfl, rfl, List.length_mapIdx, List.length_map _⟩⟩

theorem disarmTrigger_effect (s : State) : CommandEffect s s.disarmTrigger := by
  unfold State.disarmTrigger
  split
  · exact (stopTimer_effect _ s).trans (purge_effect _ _)
  · exact ⟨rfl, ⟨rfl, rfl, rfl, rfl, rfl, List.length_mapIdx, rfl⟩⟩

/-- The stop procedure disarms the trigger, then writes the channels and the engine (R216). -/
theorem stopProcedure_effect (s : State) : CommandEffect s (stopProcedure s) :=
  have hd := disarmTrigger_effect s
  have hch : (stopProcedure s).ch.length = s.disarmTrigger.ch.length :=
    (List.length_map _).trans hd.shape.ch.symm
  hd.trans ⟨rfl, ⟨rfl, rfl, rfl, rfl, rfl, rfl, hch⟩⟩

/-- What the command `i` can do in `s` (R12, R136, R139, R217). -/
inductive CommandStep (i : Instr) (s : State) : State → Prop
  | rejected (st : Status) (listed : st ∈ statusesOf i) : CommandStep i s (s.respond i.opcode.code st 0 [])
  | accepted (e : State) (payload : List Word) (effect : CommandEffect s e) :
      CommandStep i s (e.respond i.opcode.code .success 0 payload)
  | readBegun (chf : Byte) (maxRecords : BitVec 16) (isRead : i = .strRead chf maxRecords) :
      CommandStep i s (s.setRead { busy := true, filter := chf, left := maxRecords, count := 0, out := [] })

/-- The outcome `r` of the command `i` in `s` is a next state that `CommandStep` allows. -/
def Completes (i : Instr) (s : State) (r : Result) : Prop := ∃ t, r = .next t ∧ CommandStep i s t

namespace Completes

variable {i : Instr} {s : State}

theorem reject {st : Status} (listed : st ∈ statusesOf i) : Completes i s (reject i.opcode st s) :=
  ⟨_, rfl, .rejected st listed⟩

theorem succeed {e : State} (effect : CommandEffect s e) : Completes i s (succeed i.opcode e) :=
  ⟨_, rfl, .accepted e [] effect⟩

/-- One check of a command and the rest of it (R139): the check that fails rejects with its status. -/
theorem check {c : Prop} [Decidable c] {st : Status} {r : Result} (rest : Completes i s r)
    (listed : st ∈ statusesOf i := by simp [statusesOf]) :
    Completes i s (if c then Machine.reject i.opcode st s else r) := by
  split
  · exact reject listed
  · exact rest

end Completes

section

variable (s : State)

theorem execBusCfg_completes (bus : BusRef) (speed : Byte) (bmode : BitVec 4) :
    Completes (.busCfg bus speed bmode) s (execBusCfg bus speed bmode s) :=
  .check <| .check <| .check <|
    .succeed (configureBus_effect bus speed bmode s)

theorem execBusCfgw_completes (bus : BusRef) (speed : Byte) (w16 : Bool) (bmode : BitVec 4) :
    Completes (.busCfgw bus speed w16 bmode) s (execBusCfgw bus speed w16 bmode s) :=
  .check <| .check <| .check <|
    .succeed (setSpiBus_effect _ _ s)

theorem execBusDecfg_completes (bus : BusRef) : Completes (.busDecfg bus) s (execBusDecfg bus s) :=
  .check <| .check <| .check <|
    .succeed (deconfigureBus_effect bus s)

theorem execTmrCfg_completes (inst tag : Byte) : Completes (.tmrCfg inst tag) s (execTmrCfg inst tag s) :=
  .check <| .check <|
    .succeed ((setTimer_effect _ _ s).trans (purge_effect _ _))

theorem execTmrStart_completes (inst : Byte) (oneshot : Bool) (timeout : BitVec 32) :
    Completes (.tmrStart inst oneshot timeout) s (execTmrStart inst oneshot timeout s) :=
  .check <| .check <| .check <|
    .check <| .succeed (setTimer_effect _ _ s)

theorem execTmrStop_completes (inst : Byte) : Completes (.tmrStop inst) s (execTmrStop inst s) :=
  .check <| .succeed ((stopTimer_effect _ s).trans (purge_effect _ _))

theorem execTmrReset_completes (inst : Byte) : Completes (.tmrReset inst) s (execTmrReset inst s) := by
  refine .check ?_
  split
  · exact .succeed (setTimer_effect _ _ s)
  · exact .succeed (.refl s)

theorem execIntAttach_completes (pin : Byte) (policy : Policy) (tag : Byte) :
    Completes (.intAttach pin policy tag) s (execIntAttach pin policy tag s) :=
  .check <| .check <|
    .succeed ((setBinding_effect _ _ s).trans (purge_effect _ _))

theorem execIntDetach_completes (pin : Byte) : Completes (.intDetach pin) s (execIntDetach pin s) :=
  .check <| .succeed ((unbind_effect _ s).trans (purge_effect _ _))

theorem execStrCfg_completes (chan : BitVec 4) (bus : BusRef) (dev : Byte) (period : BitVec 16) (unit : UnitCode)
    (tsEn intEn : Bool) (intPol : Policy) (intPin : Byte) (blocks : List Block) :
    Completes (.strCfg chan bus dev period unit tsEn intEn intPol intPin blocks) s
      (execStrCfg chan bus dev period unit tsEn intEn intPol intPin blocks s) :=
  .check <| .check <| .check <|
    .check <| .check <| .check <|
    .check <| .check <| .check <|
    .succeed (setChannel_effect _ _ s)

theorem notConfigured_listed (k : BusKind) (mode : EngineMode) (sampleCount : BitVec 16) :
    notConfigured k ∈ statusesOf (.strStart mode sampleCount) := by
  cases k <;> simp [notConfigured, statusesOf]

theorem execStrStart_completes (mode : EngineMode) (sampleCount : BitVec 16) :
    Completes (.strStart mode sampleCount) s (execStrStart mode sampleCount s) := by
  refine .check <| .check ?_
  cases s.firstUnconfigured mode with
  | some d => exact .reject (notConfigured_listed d.bus.kind mode sampleCount)
  | none =>
    cases mode with
    | polling => exact .check <| .succeed (startPolling_effect sampleCount s)
    | interrupt => exact .succeed (startInterrupt_effect sampleCount s)

theorem execStrStop_completes (mode : EngineMode) (sampleCount : BitVec 16) :
    Completes (.strStop mode sampleCount) s (execStrStop mode sampleCount s) := by
  unfold execStrStop
  split
  · exact .succeed (stopProcedure_effect s)
  · exact .succeed (.refl s)

theorem execStrRead_completes (chf : Byte) (maxRecords : BitVec 16) :
    Completes (.strRead chf maxRecords) s (execStrRead chf maxRecords s) :=
  .check ⟨_, rfl, .readBegun chf maxRecords rfl⟩

theorem execGetMs_completes : Completes .getMs s (execGetMs s) := ⟨_, rfl, .accepted s _ (.refl s)⟩

theorem execGetUs_completes : Completes .getUs s (execGetUs s) := ⟨_, rfl, .accepted s _ (.refl s)⟩

/-- Every command completes in every state, in one of the ways of `CommandStep`. -/
theorem exec_completes (i : Instr) : Completes i s (exec i s) := by
  cases i with
  | busCfg bus speed bmode => exact execBusCfg_completes s bus speed bmode
  | busCfgw bus speed w16 bmode => exact execBusCfgw_completes s bus speed w16 bmode
  | busDecfg bus => exact execBusDecfg_completes s bus
  | tmrCfg inst tag => exact execTmrCfg_completes s inst tag
  | tmrStart inst oneshot timeout => exact execTmrStart_completes s inst oneshot timeout
  | tmrStop inst => exact execTmrStop_completes s inst
  | tmrReset inst => exact execTmrReset_completes s inst
  | intAttach pin policy tag => exact execIntAttach_completes s pin policy tag
  | intDetach pin => exact execIntDetach_completes s pin
  | strCfg chan bus dev period unit tsEn intEn intPol intPin blocks =>
    exact execStrCfg_completes s chan bus dev period unit tsEn intEn intPol intPin blocks
  | strStart mode sampleCount => exact execStrStart_completes s mode sampleCount
  | strStop mode sampleCount => exact execStrStop_completes s mode sampleCount
  | strRead chf maxRecords => exact execStrRead_completes s chf maxRecords
  | getMs => exact execGetMs_completes s
  | getUs => exact execGetUs_completes s

end

theorem commandStep_of_exec {i : Instr} {s t : State} (h : exec i s = .next t) : CommandStep i s t := by
  obtain ⟨u, hu, hstep⟩ := exec_completes s i
  rw [h] at hu
  cases hu
  exact hstep

/-- The status byte of a response (R136). -/
theorem responseHead_status (opc code : Byte) (count : BitVec 16) :
    (responseHead opc code count).extractLsb' 16 8 = code := by
  change field (responseHead opc code count) 16 8 = code
  simp (disch := decide) [responseHead, field_or, field_place_same, field_place_disjoint]

/-- Settles O11, by the ways a command can complete: the answer of an accepted one carries SUCCESS, a read that begins
has no answer yet, and a rejection is its response alone. -/
theorem rejectionChangesNothing : Obligations.RejectionChangesNothing := by
  intro i s t head payload hexec hrsp hstatus
  cases commandStep_of_exec hexec with
  | rejected st _ => rfl
  | accepted e p effect =>
    have hframe := effect.frame
    have hhead : responseHead i.opcode.code s.cfg.statusCode.success 0 = head := by
      rw [hframe] at hrsp
      exact (List.cons.inj (List.cons.inj (List.append_cancel_left hrsp)).1).1
    exact absurd (hhead ▸ responseHead_status _ _ _) hstatus
  | readBegun chf maxRecords _ => simp at hrsp

end Sys2Proof.Machine
end

section
/-! SUPPORT. The foreground's steps: what a frame at the command port runs (00_scope.md R9, 30_encoding.md R138), and what
a step that the schedule gives the host does. -/

namespace Sys2Proof.Machine

theorem runFrame_legal {frame : List Word} {i : Instr} (h : decode frame = .ok i) (s : State) :
    runFrame frame s = exec i s := by
  simp [runFrame, h]

/-- What running a frame can do (R138): its command, nothing with no header, or the rejection. -/
theorem runFrame_cases (frame : List Word) (s : State) :
    (∃ i, decode frame = .ok i ∧ runFrame frame s = exec i s) ∨ runFrame frame s = .next s ∨
    ∃ opc, runFrame frame s = .next (s.respond opc .eNotSupported 0 []) := by
  unfold runFrame
  split
  · next i hi => exact .inl ⟨i, hi, rfl⟩
  · exact .inr (.inl rfl)
  all_goals exact .inr (.inr ⟨_, rfl⟩)

/-- What the decoder answers about a frame that carries no command names the `OPC` of its header (R138). -/
theorem decode_error_opcode {h : Word} {ext : List Word} {e : DecodeError} (he : decode (h :: ext) = .error e) :
    e = .unknownOpcode (opcOf h) ∨ e = .wrongLength (opcOf h) ∨ e = .reservedBits (opcOf h) := by
  unfold decode at he
  simp only at he
  split at he
  · split at he <;> cases he <;> simp
  · split at he
    · split at he <;> cases he
      simp
    · cases he
      simp

/-- A frame that carries no command is rejected with its `OPC` and E_NOT_SUPPORTED (R138). -/
theorem runFrame_illegal {h : Word} {ext : List Word} (hd : ∀ i, decode (h :: ext) ≠ .ok i) (s : State) :
    runFrame (h :: ext) s = .next (s.respond (opcOf h) .eNotSupported 0 []) := by
  cases he : decode (h :: ext) with
  | ok i => exact absurd he (hd i)
  | error e => rcases decode_error_opcode he with rfl | rfl | rfl <;> simp [runFrame, he]

theorem foregroundStep_frame {s : State} {frame rest : List Word} (hb : s.rd.busy = false)
    (hf : splitFrame s.cmdPort = some (frame, rest)) :
    foregroundStep s = runFrame frame { s with cmdPort := rest } := by
  simp [foregroundStep, hb, hf]

theorem foregroundStep_waits {s : State} (hb : s.rd.busy = false) (hf : splitFrame s.cmdPort = none) :
    foregroundStep s = .next s := by
  simp [foregroundStep, hb, hf]

/-- Taking the next agent step takes the first of the schedule (log 2). -/
theorem advance_sched (s : State) : s.advance.sched = s.sched.tail := by
  unfold State.advance
  split <;> simp [*]

theorem step_of_not_mustDispatch {s : State} (h : s.mustDispatch = false) :
    step s = agentStep s.nextAgent s.advance := by
  simp [step, nextStep, h]

/-- A host step with no read in progress: the port accepts words, then the foreground steps (R9, R10). -/
theorem step_host_idle {s : State} {words : List Word} (hd : s.mustDispatch = false) (ha : s.nextAgent = .host words)
    (hb : s.rd.busy = false) :
    step s = foregroundStep { s.advance with cmdPort := portAccept s.cmdPort words } := by
  have hframe := advance_frame s
  have hrd : s.advance.rd = s.rd := by rw [hframe]
  have hport : s.advance.cmdPort = s.cmdPort := by rw [hframe]
  rw [step_of_not_mustDispatch hd, ha]
  change foregroundStep (s.advance.acceptWords words) = _
  rw [acceptWords_idle words s.advance (hrd ▸ hb), hport]

/-- A whole frame at the port is taken and run in the same step (R9, R120). -/
theorem step_host_frame {s : State} {words frame rest : List Word} (hd : s.mustDispatch = false)
    (ha : s.nextAgent = .host words) (hb : s.rd.busy = false)
    (hf : splitFrame (portAccept s.cmdPort words) = some (frame, rest)) :
    step s = runFrame frame { s.advance with cmdPort := rest } := by
  rw [step_host_idle hd ha hb]
  exact foregroundStep_frame (by rw [advance_frame]; exact hb) hf

theorem step_host_waits {s : State} {words : List Word} (hd : s.mustDispatch = false)
    (ha : s.nextAgent = .host words) (hb : s.rd.busy = false)
    (hf : splitFrame (portAccept s.cmdPort words) = none) :
    step s = .next { s.advance with cmdPort := portAccept s.cmdPort words } := by
  rw [step_host_idle hd ha hb]
  exact foregroundStep_waits (by rw [advance_frame]; exact hb) hf

/-- Settles O8, by what the port holds after the host's words. -/
theorem stepRunsDecodedCommand : Obligations.StepRunsDecodedCommand := by
  intro s words hd ha hb
  refine ⟨fun frame rest hf => ⟨fun i hi => ?_, ?_⟩, step_host_waits hd ha hb, ?_⟩
  · exact (step_host_frame hd ha hb hf).trans (runFrame_legal hi _)
  · rintro h ext rfl hnone
    exact (step_host_frame hd ha hb hf).trans (runFrame_illegal hnone _)
  · rw [← advance_sched]
    exact advance_frame s

end Sys2Proof.Machine
end

section
/-! SUPPORT. Every step keeps the parameters and the sizes of the tables (00_scope.md R5): the steps of the foreground,
of the Dispatcher with its tick sequence, and of the other agents. -/

namespace Sys2Proof.Machine

theorem CommandStep.sameShape {i : Instr} {s t : State} (h : CommandStep i s t) : SameShape s t := by
  cases h with
  | rejected st _ => exact respond_sameShape _ st 0 [] s
  | accepted e payload effect => exact effect.shape.trans (respond_sameShape _ _ 0 payload e)
  | readBegun chf maxRecords _ => exact setRead_sameShape _ s

theorem runFrame_sameShape {frame : List Word} {s t : State} (h : runFrame frame s = .next t) : SameShape s t := by
  rcases runFrame_cases frame s with ⟨i, _, hs⟩ | hs | ⟨opc, hs⟩ <;> rw [hs] at h
  · exact (commandStep_of_exec h).sameShape
  · cases h
    exact .refl s
  · cases h
    exact respond_sameShape opc _ 0 [] s

theorem rdPop_sameShape {s t : State} (h : rdPop s = .next t) : SameShape s t := by
  unfold rdPop at h
  split at h
  · cases h
  · cases h
    exact (setRing_sameShape _ s).trans (setRead_sameShape _ _)

theorem rdEnd_sameShape {s t : State} (h : rdEnd s = .next t) : SameShape s t := by
  cases h
  exact ((setRing_sameShape _ s).trans (setRead_sameShape _ _)).trans (respond_sameShape _ _ _ _ _)

theorem foregroundStep_sameShape {s t : State} (h : foregroundStep s = .next t) : SameShape s t := by
  rcases foregroundStep_cases s with ⟨_, _, hs⟩ | ⟨_, _, hs⟩ | ⟨_, _, hs⟩ | ⟨_, frame, rest, _, hs⟩ <;> rw [hs] at h
  · exact rdEnd_sameShape h
  · exact rdPop_sameShape h
  · cases h
    exact .refl s
  · exact (setCmdPort_sameShape rest s).trans (runFrame_sameShape h)

theorem dueSet_sameShape {e : Trigger} {s s1 : State} {due : List Nat} (h : dueSet e s = .ok (due, s1)) :
    SameShape s s1 := by
  unfold dueSet at h
  split at h
  · split at h
    · cases h
      exact ⟨rfl, rfl, rfl, rfl, rfl, rfl, List.length_map _⟩
    · cases h
  · cases h
    exact .refl _
  · cases h
  · cases h

theorem sample_sameShape (c : Nat) (ts : BitVec 64) (s : State) : SameShape s (sample c ts s).2 := by
  unfold sample
  simp only
  rw [fetchBlocks_frame]
  exact ⟨rfl, rfl, rfl, rfl, rfl, rfl, rfl⟩

theorem serveChannel_sameShape {ts : BitVec 64} {c : Nat} {s t : State} (h : serveChannel ts c s = .ok t) :
    SameShape s t := by
  unfold serveChannel at h
  split at h
  · cases h
  · cases h
    exact ((sample_sameShape c ts s).trans (setRing_sameShape _ _)).trans (setChannel_sameShape c _ _)

theorem serveChannels_sameShape {ts : BitVec 64} {cs : List Nat} {s t : State} (h : serveChannels ts cs s = .ok t) :
    SameShape s t := by
  induction cs generalizing s with
  | nil =>
    cases h
    exact .refl _
  | cons c cs ih =>
    unfold serveChannels at h
    split at h
    · cases h
    · next s' hc => exact (serveChannel_sameShape hc).trans (ih h)

theorem autoStop_sameShape (s : State) : SameShape s (autoStop s) := by
  unfold autoStop
  split
  · exact (stopProcedure_effect s).shape
  · exact .refl s

/-- A tick sequence finds the due channels, serves them and may stop (R250). -/
theorem tickSequence_sameShape {e : Trigger} {s t : State} (h : tickSequence e s = .ok t) : SameShape s t := by
  unfold tickSequence at h
  split at h
  · cases h
  · next due s1 hdue =>
    split at h <;> cases h
    next s2 hserve =>
      exact ((dueSet_sameShape hdue).trans (serveChannels_sameShape hserve)).trans (autoStop_sameShape s2)

theorem runTick_sameShape {e : Trigger} {s t : State} (h : runTick e s = .next t) : SameShape s t := by
  unfold runTick at h
  split at h <;> cases h
  next htick => exact tickSequence_sameShape htick

/-- What the handler of a trigger can do (R289): nothing, one callback, or a tick sequence. -/
theorem runHandler_cases (e : Trigger) (s : State) :
    runHandler e s = .next s ∨ (∃ ev, runHandler e s = .next (s.emit ev)) ∨ runHandler e s = runTick e s := by
  unfold runHandler
  split
  · split
    · exact .inr (.inl ⟨_, rfl⟩)
    · exact .inr (.inr rfl)
    · exact .inl rfl
  · split
    · exact .inl rfl
    · split
      · exact .inr (.inl ⟨_, rfl⟩)
      · exact .inr (.inr rfl)

theorem runHandler_sameShape {e : Trigger} {s t : State} (h : runHandler e s = .next t) : SameShape s t := by
  rcases runHandler_cases e s with hs | ⟨ev, hs⟩ | hs <;> rw [hs] at h
  · cases h
    exact .refl s
  · cases h
    exact emit_sameShape ev s
  · exact runTick_sameShape h

theorem dispatchStep_sameShape {s t : State} (h : dispatchStep s = .next t) : SameShape s t := by
  unfold dispatchStep at h
  split at h
  · cases h
    exact .refl s
  · next e rest _ => exact (setTrigq_sameShape rest s).trans (runHandler_sameShape h)

theorem pinResetLevel_length {p : Params} (h : p.Ok) : p.pinResetLevel.length = p.nPins := by
  obtain ⟨_, _, _, _, _, _, _, _, _, _, _, hpins, _⟩ := h
  exact hpins

/-- Reset sizes every table by the parameters (R55). -/
theorem resetStep_shaped {s : State} (h : s.cfg.Ok) : (resetStep s).Shaped :=
  ⟨h, List.length_replicate, List.length_replicate, List.length_replicate, pinResetLevel_length h,
    List.length_replicate, List.length_replicate⟩

theorem agentStep_sameShape {a : AgentStep} {s t : State} (h : agentStep a s = .next t) (hs : s.Shaped) :
    SameShape s t := by
  cases a with
  | usTick =>
    cases h
    exact usTick_sameShape s
  | pinChange p v =>
    cases h
    exact pinChange_sameShape p v s
  | dispatch => exact dispatchStep_sameShape h
  | host words => exact (acceptWords_sameShape words s).trans (foregroundStep_sameShape h)
  | reset =>
    cases h
    obtain ⟨hok, hi2c, hspi, htmr, hpin, hbind, hch⟩ := hs
    obtain ⟨_, ri2c, rspi, rtmr, rpin, rbind, rch⟩ := resetStep_shaped hok
    exact ⟨rfl, ri2c.trans hi2c.symm, rspi.trans hspi.symm, rtmr.trans htmr.symm, rpin.trans hpin.symm,
      rbind.trans hbind.symm, rch.trans hch.symm⟩

theorem step_sameShape {s t : State} (h : step s = .next t) (hs : s.Shaped) : SameShape s t := by
  rcases step_cases s with ⟨_, hn⟩ | ⟨_, hn⟩
  · exact dispatchStep_sameShape (hn.symm.trans h)
  · have hadv := advance_sameShape s
    exact hadv.trans (agentStep_sameShape (hn.symm.trans h) (hadv.shaped hs))

/-- Settles O50, agent by agent. -/
theorem stepKeepsShape : Obligations.StepKeepsShape := fun _ _ hs h =>
  have hsame := step_sameShape h hs
  ⟨hsame.cfg, hsame.shaped hs⟩

end Sys2Proof.Machine
end

section
/-! SUPPORT. What every step can do, said once (00_scope.md R9, 30_encoding.md R139): the fields that are only kept in the
books, the checks an accepted command has passed with what it then does, and the inductions over the steps of the
foreground and of the Dispatcher. An invariant is proved by giving one field for each thing a step can do. -/

namespace Sys2Proof.Machine

/-- `t` is `s` up to the traces and the answers the bus target has used up: all that a Dispatch writes beside the tables,
the ring and TRIGQ (R53, R91). -/
def Traces (s t : State) : Prop :=
  t = { s with evt := t.evt, busLog := t.busLog, busScript := t.busScript, free := t.free }

/-- `t` is `s` up to the traces, the read in progress, the command port and the schedule (R52, R53, R120). -/
def Bookkeeping (s t : State) : Prop :=
  t = { s with
    rd := t.rd, rsp := t.rsp, evt := t.evt, busLog := t.busLog, cmdPort := t.cmdPort, sched := t.sched,
    busScript := t.busScript, drawn := t.drawn, free := t.free }

theorem Bookkeeping.refl (s : State) : Bookkeeping s s := rfl

theorem Bookkeeping.trans {s t u : State} (hst : Bookkeeping s t) (htu : Bookkeeping t u) : Bookkeeping s u := by
  unfold Bookkeeping at *
  rw [hst] at htu
  exact htu

theorem respond_bookkeeping (opc : Byte) (st : Status) (n : BitVec 16) (p : List Word) (s : State) :
    Bookkeeping s (s.respond opc st n p) := rfl

theorem setRead_bookkeeping (r : ReadState) (s : State) : Bookkeeping s (s.setRead r) := rfl

theorem setCmdPort_bookkeeping (p : List Word) (s : State) : Bookkeeping s { s with cmdPort := p } := rfl

theorem advance_bookkeeping (s : State) : Bookkeeping s s.advance := by
  unfold Bookkeeping
  rw [advance_frame]

theorem acceptWords_bookkeeping (words : List Word) (s : State) : Bookkeeping s (s.acceptWords words) := by
  unfold State.acceptWords
  split
  · exact .refl s
  · exact setCmdPort_bookkeeping _ s

/-! ## Commands -/

/-- What a command does to the machine before it responds, with the checks it has passed (R139): a rejected command and
one that only answers do nothing. -/
inductive CommandAction (s : State) : State → Prop
  | nothing : CommandAction s s
  | busConfigured (r : BusRef) (speed : Byte) (bmode : BitVec 4) (fresh : s.busConfigured r = false) :
      CommandAction s (s.configureBus r speed bmode)
  | spiConfigured (i : Nat) (b : SpiBus) (fresh : (s.spiBus i).configured = false) (on : b.configured = true) :
      CommandAction s (s.setSpiBus i b)
  | busReleased (r : BusRef) (unused : s.busInUse r = false) : CommandAction s (s.deconfigureBus r)
  | timerBound (i : Nat) (tag : Byte) (lt : i < s.cfg.nTimers) :
      CommandAction s ((s.setTimer i { s.timer i with target := .ext tag, state := .ready }).purge (.timer i))
  | timerStarted (i : Nat) (oneshot : Bool) (timeout : BitVec 32) (lt : i < s.cfg.nTimers)
      (ready : (s.timer i).state = .ready) (positive : timeout ≠ 0) :
      CommandAction s (s.setTimer i
        { s.timer i with timeout := timeout, cnt := 0, oneshot := oneshot, state := .running })
  | timerStopped (i : Nat) (lt : i < s.cfg.nTimers) : CommandAction s ((s.stopTimer i).purge (.timer i))
  | timerCleared (i : Nat) (lt : i < s.cfg.nTimers) (running : (s.timer i).state = .running) :
      CommandAction s (s.setTimer i { s.timer i with cnt := 0 })
  | pinAttached (p : Nat) (policy : Policy) (tag : Byte) (lt : p < s.cfg.nPins) (known : policy ≠ .reserved) :
      CommandAction s ((s.setBinding p { valid := true, policy := policy, target := .ext tag }).purge (.pin p))
  | pinDetached (p : Nat) (lt : p < s.cfg.nPins) : CommandAction s ((s.unbind p).purge (.pin p))
  | descriptorStored (c : Nat) (d : Channel) (idle : s.eng.armed = false) (valid : d.valid = true)
      (inactive : d.active = false) (ok : d.DescriptorOk s.cfg) : CommandAction s (s.setChannel c d)
  | pollingStarted (cap : BitVec 16) (idle : s.eng.armed = false) (some : s.matching .polling ≠ [])
      (buses : ∀ d ∈ s.matching .polling, s.busConfigured d.bus = true) : CommandAction s (s.startPolling cap)
  | interruptStarted (cap : BitVec 16) (idle : s.eng.armed = false)
      (buses : ∀ d ∈ s.matching .interrupt, s.busConfigured d.bus = true) : CommandAction s (s.startInterrupt cap)
  | engineStopped : CommandAction s (stopProcedure s)

/-- An action writes no more than the effect of a command can. -/
theorem CommandAction.effect {s e : State} (h : CommandAction s e) : CommandEffect s e := by
  cases h with
  | nothing => exact .refl s
  | busConfigured r speed bmode _ => exact configureBus_effect r speed bmode s
  | spiConfigured i b _ _ => exact setSpiBus_effect i b s
  | busReleased r _ => exact deconfigureBus_effect r s
  | timerBound i tag _ => exact (setTimer_effect i _ s).trans (purge_effect _ _)
  | timerStarted i oneshot timeout _ _ _ => exact setTimer_effect i _ s
  | timerStopped i _ => exact (stopTimer_effect i s).trans (purge_effect _ _)
  | timerCleared i _ _ => exact setTimer_effect i _ s
  | pinAttached p policy tag _ _ => exact (setBinding_effect p _ s).trans (purge_effect _ _)
  | pinDetached p _ => exact (unbind_effect p s).trans (purge_effect _ _)
  | descriptorStored c d _ _ _ _ => exact setChannel_effect c d s
  | pollingStarted cap _ _ _ => exact startPolling_effect cap s
  | interruptStarted cap _ _ => exact startInterrupt_effect cap s
  | engineStopped => exact stopProcedure_effect s

/-- The outcome `r` of a command in `s` is one action and then its response, or the beginning of a read. -/
def Acts (s : State) (r : Result) : Prop := ∀ t, r = .next t → ∃ e, CommandAction s e ∧ Bookkeeping e t

namespace Acts

variable {s : State}

theorem answers {op : Opcode} {st : Status} {n : BitVec 16} {p : List Word} {e : State} (h : CommandAction s e) :
    Acts s (.next (e.respond op.code st n p)) := by
  rintro t ⟨⟩
  exact ⟨e, h, respond_bookkeeping _ _ _ _ e⟩

theorem rejects (op : Opcode) (st : Status) : Acts s (reject op st s) := answers .nothing

theorem succeeds {op : Opcode} {e : State} (h : CommandAction s e) : Acts s (succeed op e) := answers h

/-- One check of a command (R139): the rest runs when it does not fail. -/
theorem check {c : Prop} [Decidable c] {op : Opcode} {st : Status} {r : Result} (rest : ¬ c → Acts s r) :
    Acts s (if c then reject op st s else r) := by
  split
  · exact rejects op st
  · next h => exact rest h

end Acts

/-- Check 5 of STR_CFG (R210) lets through a list of blocks that is not empty, is within MAX_BLOCKS and asks for at least
one byte each. -/
theorem blockListBad_false {p : Params} {bs : List Block} (h : ¬ blockListBad p bs = true) :
    bs ≠ [] ∧ bs.length ≤ p.maxBlocks ∧ ∀ b ∈ bs, b.cnt ≠ 0 := by
  simpa [blockListBad, and_assoc] using h

/-- Check 9 of STR_CFG (R210) lets through a pin that exists and one of the three policies. -/
theorem pinOperandBad_false {p : Params} {intEn : Bool} {intPin : Byte} {intPol : Policy}
    (h : ¬ pinOperandBad p intEn intPin intPol = true) :
    intEn = true → intPin.toNat < p.nPins ∧ intPol ≠ .reserved := by
  rintro rfl
  simpa [pinOperandBad] using h

/-- Check 3 of STR_START (R212) lets through channels whose buses are configured. -/
theorem firstUnconfigured_none {s : State} {m : EngineMode} (h : s.firstUnconfigured m = none) :
    ∀ d ∈ s.matching m, s.busConfigured d.bus = true := by
  simpa [State.firstUnconfigured] using h

section

variable (s : State)

theorem execStrCfg_acts (chan : BitVec 4) (bus : BusRef) (dev : Byte) (period : BitVec 16) (unit : UnitCode)
    (tsEn intEn : Bool) (intPol : Policy) (intPin : Byte) (blocks : List Block) :
    Acts s (execStrCfg chan bus dev period unit tsEn intEn intPol intPin blocks s) := by
  refine .check fun idle => .check fun _ => .check fun bus => .check fun _ => .check fun blocksOk =>
    .check fun fits => .check fun _ => .check fun periodOk => .check fun pinOk =>
      .succeeds (.descriptorStored _ _ (by simpa using idle) rfl rfl ?_)
  obtain ⟨some, few, positive⟩ := blockListBad_false blocksOk
  exact ⟨by simpa using bus, some, few, positive, Nat.not_lt.mp fits, fun hi hp => periodOk ⟨hi, hp⟩,
    pinOperandBad_false pinOk⟩

theorem execStrStart_acts (mode : EngineMode) (sampleCount : BitVec 16) :
    Acts s (execStrStart mode sampleCount s) := by
  refine .check fun idle => .check fun some => ?_
  have idle : s.eng.armed = false := by simpa using idle
  cases hf : s.firstUnconfigured mode with
  | some d => exact .rejects _ _
  | none =>
    have buses := firstUnconfigured_none hf
    cases mode with
    | polling =>
      exact .check fun _ => .succeeds (.pollingStarted sampleCount idle (by simpa using some) buses)
    | interrupt => exact .succeeds (.interruptStarted sampleCount idle buses)

theorem execTmrReset_acts (inst : Byte) : Acts s (execTmrReset inst s) := by
  refine .check fun lt => ?_
  split
  · next running => exact .succeeds (.timerCleared _ (Nat.not_le.mp lt) running)
  · exact .succeeds .nothing

/-- A timer that is neither RUNNING nor STOPPED is READY (R38). -/
theorem timerState_ready {x : TimerState} (hr : ¬ x = .running) (hs : ¬ x = .stopped) : x = .ready := by
  cases x <;> trivial

/-- Every command acts in one of the ways of `CommandAction`. -/
theorem exec_acts (i : Instr) : Acts s (exec i s) := by
  cases i with
  | busCfg bus speed bmode =>
    exact .check fun _ => .check fun fresh => .check fun _ =>
      .succeeds (.busConfigured bus speed bmode (by simpa using fresh))
  | busCfgw bus speed w16 bmode =>
    exact .check fun _ => .check fun fresh => .check fun _ =>
      .succeeds (.spiConfigured _ _ (by simpa using fresh) rfl)
  | busDecfg bus =>
    exact .check fun _ => .check fun _ => .check fun unused => .succeeds (.busReleased bus (by simpa using unused))
  | tmrCfg inst tag =>
    exact .check fun lt => .check fun _ => .succeeds (.timerBound _ tag (Nat.not_le.mp lt))
  | tmrStart inst oneshot timeout =>
    exact .check fun lt => .check fun run => .check fun stop => .check fun positive =>
      .succeeds (.timerStarted _ oneshot timeout (Nat.not_le.mp lt) (timerState_ready run stop) positive)
  | tmrStop inst => exact .check fun lt => .succeeds (.timerStopped _ (Nat.not_le.mp lt))
  | tmrReset inst => exact execTmrReset_acts s inst
  | intAttach pin policy tag =>
    exact .check fun lt => .check fun known => .succeeds (.pinAttached _ policy tag (Nat.not_le.mp lt) known)
  | intDetach pin => exact .check fun lt => .succeeds (.pinDetached _ (Nat.not_le.mp lt))
  | strCfg chan bus dev period unit tsEn intEn intPol intPin blocks =>
    exact execStrCfg_acts s chan bus dev period unit tsEn intEn intPol intPin blocks
  | strStart mode sampleCount => exact execStrStart_acts s mode sampleCount
  | strStop mode sampleCount =>
    change Acts s (execStrStop mode sampleCount s)
    unfold execStrStop
    split
    · exact .succeeds .engineStopped
    · exact .succeeds .nothing
  | strRead chf maxRecords =>
    refine .check fun _ => ?_
    rintro t ⟨⟩
    exact ⟨s, .nothing, setRead_bookkeeping _ s⟩
  | getMs => exact .answers .nothing
  | getUs => exact .answers .nothing

end

theorem runFrame_acts (frame : List Word) (s : State) : Acts s (runFrame frame s) := by
  rcases runFrame_cases frame s with ⟨i, _, h⟩ | h | ⟨opc, h⟩ <;> rw [h]
  · exact exec_acts s i
  · rintro t ⟨⟩
    exact ⟨s, .nothing, .refl s⟩
  · rintro t ⟨⟩
    exact ⟨s, .nothing, respond_bookkeeping _ _ _ _ s⟩

/-! ## The foreground -/

/-- A predicate that the foreground keeps, but for RdEnd (R9, R217). -/
structure ForegroundKept (P : State → Prop) : Prop where
  bookkeeping {s t : State} : Bookkeeping s t → P s → P t
  command {s e : State} : CommandAction s e → P s → P e
  popped {s : State} {filter : Byte} {out : Option (List Byte)} {r : Ring} :
    popOne s.cfg.bufCap filter s.ring = .ok (out, r) → P s → P (s.setRing r)

/-- RdPop sets the ring that PopOne leaves (R217). -/
theorem rdPop_ok {s t : State} (h : rdPop s = .next t) :
    ∃ out r, popOne s.cfg.bufCap s.rd.filter s.ring = .ok (out, r) ∧ Bookkeeping (s.setRing r) t := by
  unfold rdPop at h
  split at h <;> cases h
  next out r hpop => exact ⟨out, r, hpop, setRead_bookkeeping _ _⟩

/-- RdEnd clears OVF (R217). -/
theorem rdEnd_ok {s t : State} (h : rdEnd s = .next t) : Bookkeeping (s.setRing { s.ring with ovf := false }) t := by
  cases h
  rfl

theorem ForegroundKept.foregroundStep {P : State → Prop} (k : ForegroundKept P) {s t : State}
    (readEnd : s.rd.busy = true → s.rd.left = 0 → P s → P (s.setRing { s.ring with ovf := false })) (hp : P s)
    (h : foregroundStep s = .next t) : P t := by
  rcases foregroundStep_cases s with ⟨hb, hl, hs⟩ | ⟨_, _, hs⟩ | ⟨_, _, hs⟩ | ⟨_, frame, rest, _, hs⟩ <;> rw [hs] at h
  · exact k.bookkeeping (rdEnd_ok h) (readEnd hb hl hp)
  · obtain ⟨out, r, hpop, hbook⟩ := rdPop_ok h
    exact k.bookkeeping hbook (k.popped hpop hp)
  · cases h
    exact hp
  · obtain ⟨e, hact, hbook⟩ := runFrame_acts frame _ t h
    exact k.bookkeeping hbook (k.command hact (k.bookkeeping (setCmdPort_bookkeeping rest s) hp))

/-- A host step: the port accepts words, then the foreground steps. -/
theorem ForegroundKept.host {P : State → Prop} (k : ForegroundKept P) {s t : State} {words : List Word}
    (readEnd : s.rd.busy = true → s.rd.left = 0 → ∀ u, P u → P (u.setRing { u.ring with ovf := false })) (hp : P s)
    (h : agentStep (.host words) s = .next t) : P t := by
  have hrd : (s.acceptWords words).rd = s.rd := by
    unfold State.acceptWords
    split <;> rfl
  exact k.foregroundStep (fun hb hl => readEnd (hrd ▸ hb) (hrd ▸ hl) _)
    (k.bookkeeping (acceptWords_bookkeeping words s) hp) h

/-! ## The Dispatcher -/

/-- A predicate that the Dispatcher keeps (R250, R289): a trigger is taken, the dividers count, due channels are served,
the engine is stopped. -/
structure DispatchKept (P : State → Prop) : Prop where
  traces {s t : State} : Traces s t → P s → P t
  taken {s : State} {e : Trigger} {rest : List Trigger} : s.trigq = e :: rest → P s → P { s with trigq := rest }
  fireCounted {s : State} : P s → P { s with ch := s.ch.map Channel.countFire }
  served {s : State} {c : Nat} {ts : BitVec 64} {r : Ring} : c < s.cfg.nChannels → (s.channel c).valid = true →
    push s.cfg.bufCap (sample c ts s).1 s.ring = .ok r → P s → P ((s.setRing r).count c)
  stopped {s : State} : P s → P (stopProcedure s)

theorem sample_traces (c : Nat) (ts : BitVec 64) (s : State) : Traces s (sample c ts s).2 := by
  unfold sample Traces
  simp only
  rw [fetchBlocks_frame]

/-- Serving a channel pushes its record and counts it (R250). -/
theorem serveChannel_ok {ts : BitVec 64} {c : Nat} {s t : State} (h : serveChannel ts c s = .ok t) :
    ∃ r, push s.cfg.bufCap (sample c ts s).1 s.ring = .ok r ∧ Traces ((s.setRing r).count c) t := by
  unfold serveChannel at h
  split at h <;> cases h
  next r hpush =>
    refine ⟨r, hpush, ?_⟩
    have hs := sample_traces c ts s
    unfold Traces at hs ⊢
    rw [hs]
    rfl

theorem counted_valid (cap : BitVec 16) (d : Channel) : (d.counted cap).valid = d.valid := by
  unfold Channel.counted
  split <;> rfl

theorem countFire_valid (d : Channel) : d.countFire.valid = d.valid := by
  unfold Channel.countFire
  split <;> rfl

/-- A write that keeps an entry's `valid` keeps every channel's. -/
theorem setChannel_valid {s : State} {c : Nat} {d : Channel} (hd : d.valid = (s.channel c).valid) (k : Nat) :
    ((s.setChannel c d).channel k).valid = (s.channel k).valid := by
  by_cases hk : k = c
  · subst hk
    by_cases hlt : k < s.ch.length
    · rw [State.channel_setChannel_same s k d hlt, hd]
    · simp [State.setChannel, List.set_eq_of_length_le (Nat.not_lt.mp hlt)]
  · rw [State.channel_setChannel_ne s c k d hk]

theorem serveChannel_valid {ts : BitVec 64} {c : Nat} {s t : State} (h : serveChannel ts c s = .ok t) (k : Nat) :
    (t.channel k).valid = (s.channel k).valid := by
  obtain ⟨r, _, htr⟩ := serveChannel_ok h
  rw [htr]
  exact setChannel_valid (s := s.setRing r) (counted_valid _ _) k

/-- The due channels hold descriptors, before the dividers count and after (R251, R252). -/
theorem dueSet_ok {e : Trigger} {s s1 : State} {due : List Nat} (h : dueSet e s = .ok (due, s1)) :
    (∀ c ∈ due, c < s.cfg.nChannels ∧ (s.channel c).valid = true) ∧
    (s1 = s ∨ s1 = { s with ch := s.ch.map Channel.countFire }) := by
  unfold dueSet at h
  split at h
  · split at h <;> cases h
    exact ⟨fun c hc => by simp_all [State.channelsWith, Channel.dueOnFire, Channel.counting], .inr rfl⟩
  · cases h
    exact ⟨fun c hc => by simp_all [State.channelsWith, Channel.dueOnEdge], .inl rfl⟩
  · cases h
  · cases h

theorem fireCounted_valid (s : State) (k : Nat) :
    (State.channel { s with ch := s.ch.map Channel.countFire } k).valid = (s.channel k).valid := by
  have hreset : Channel.reset.countFire = Channel.reset := by decide
  exact (congrArg Channel.valid (channel_map s _ hreset k)).trans (countFire_valid _)

namespace DispatchKept

variable {P : State → Prop} (k : DispatchKept P)

include k

theorem serveChannels {ts : BitVec 64} {cs : List Nat} {s t : State}
    (hcs : ∀ c ∈ cs, c < s.cfg.nChannels ∧ (s.channel c).valid = true) (hp : P s)
    (h : serveChannels ts cs s = .ok t) : P t := by
  induction cs generalizing s with
  | nil =>
    cases h
    exact hp
  | cons c cs ih =>
    unfold Machine.serveChannels at h
    split at h
    · cases h
    · next s' hserve =>
      obtain ⟨r, hpush, htr⟩ := serveChannel_ok hserve
      obtain ⟨hlt, hvalid⟩ := hcs c List.mem_cons_self
      refine ih (fun d hd => ?_) (k.traces htr (k.served hlt hvalid hpush hp)) h
      rw [serveChannel_valid hserve, (serveChannel_sameShape hserve).cfg]
      exact hcs d (List.mem_cons_of_mem c hd)

theorem tickSequence {e : Trigger} {s t : State} (hp : P s) (h : tickSequence e s = .ok t) : P t := by
  unfold Machine.tickSequence at h
  split at h
  · cases h
  · next due s1 hdue =>
    split at h <;> cases h
    next s2 hserve =>
      obtain ⟨hvalid, hs1⟩ := dueSet_ok hdue
      have hp2 : P s2 := by
        rcases hs1 with rfl | rfl
        · exact k.serveChannels hvalid hp hserve
        · refine k.serveChannels (fun c hc => ?_) (k.fireCounted hp) hserve
          rw [fireCounted_valid]
          exact hvalid c hc
      unfold autoStop
      split
      · exact k.stopped hp2
      · exact hp2

theorem dispatchStep {s t : State} (hp : P s) (h : dispatchStep s = .next t) : P t := by
  unfold Machine.dispatchStep at h
  split at h
  · cases h
    exact hp
  · next e rest hq =>
    have hp := k.taken hq hp
    rcases runHandler_cases e { s with trigq := rest } with hs | ⟨ev, hs⟩ | hs <;> rw [hs] at h
    · cases h
      exact hp
    · cases h
      exact k.traces rfl hp
    · unfold runTick at h
      split at h <;> cases h
      next htick => exact k.tickSequence hp htick

end DispatchKept

/-! ## All steps -/

/-- What a step can be (R9, R301): a Dispatch, or the step of another agent, which PROMPT lets step because no trigger
waits, or because it is the reset input. -/
theorem step_agent {s t : State} (h : step s = .next t) :
    (∃ u, Bookkeeping s u ∧ u.cmdPort = s.cmdPort ∧ u.rd = s.rd ∧ dispatchStep u = .next t) ∨
    (s.mustDispatch = false ∧ s.nextAgent ≠ .dispatch ∧
      (s.nextAgent ≠ .reset → s.cfg.dispatchModel = .prompt → s.trigq = []) ∧
      agentStep s.nextAgent s.advance = .next t) := by
  rcases step_cases s with ⟨_, hn⟩ | ⟨hm, hn⟩
  · exact .inl ⟨s, .refl s, rfl, rfl, hn.symm.trans h⟩
  · have hstep := hn.symm.trans h
    by_cases hd : s.nextAgent = .dispatch
    · rw [hd] at hstep
      exact .inl ⟨s.advance, advance_bookkeeping s, by rw [advance_frame], by rw [advance_frame], hstep⟩
    · refine .inr ⟨hm, hd, fun hr hprompt => ?_, hstep⟩
      unfold State.mustDispatch at hm
      cases ha : s.nextAgent <;> simp_all

/-- A predicate that every step but reset keeps. -/
structure StepKept (P : State → Prop) : Prop extends ForegroundKept P, DispatchKept P where
  readEnded {s : State} : P s → P (s.setRing { s.ring with ovf := false })
  ticked {s : State} : (s.cfg.dispatchModel = .prompt → s.trigq = []) → P s → P (usTick s)
  pinChanged {s : State} (p : Nat) (v : Bool) :
    (s.cfg.dispatchModel = .prompt → s.trigq = []) → P s → P (pinChange p v s)

/-- Along a step such a predicate holds again, or the step is the reset input. -/
theorem StepKept.step {P : State → Prop} (k : StepKept P) {s t : State} (hp : P s) (h : step s = .next t) :
    P t ∨ (s.mustDispatch = false ∧ s.nextAgent = .reset ∧ t = resetStep s.advance) := by
  rcases step_agent h with ⟨u, hu, _, _, hstep⟩ | ⟨hm, _, hwait, hstep⟩
  · exact .inl (k.dispatchStep (k.bookkeeping hu hp) hstep)
  · have hpa := k.bookkeeping (advance_bookkeeping s) hp
    have hwait' : s.nextAgent ≠ .reset → s.advance.cfg.dispatchModel = .prompt → s.advance.trigq = [] := by
      rw [advance_frame]
      exact hwait
    cases ha : s.nextAgent <;> rw [ha] at hstep hwait'
    case usTick =>
      cases hstep
      exact .inl (k.ticked (hwait' nofun) hpa)
    case pinChange p v =>
      cases hstep
      exact .inl (k.pinChanged p v (hwait' nofun) hpa)
    case dispatch => exact .inl (k.dispatchStep hpa hstep)
    case host words => exact .inl (k.host (fun _ _ _ => k.readEnded) hpa hstep)
    case reset =>
      cases hstep
      exact .inr ⟨hm, rfl, rfl⟩

end Sys2Proof.Machine
end

section
/-! SUPPORT. What the agents' steps leave alone: UsTick, PinChange and Dispatch (60_exceptions.md R285, R286, R289), and the
sticky flags and US, which almost nothing writes (10_state.md R32, R48, R50). -/

namespace Sys2Proof.Machine

/-- `UsTick` writes US, TMR, TRIGQ, TRIG_OVERRUN and the count of free values alone (R285). -/
theorem usTick_frame (s : State) :
    usTick s = { s with
      us := s.us + 1
      tmr := s.tmr.mapIdx fun i t => t.tick s.free i
      trigq := (usTick s).trigq
      trigOverrun := (usTick s).trigOverrun
      free := s.free + 1 } := by
  unfold usTick
  rw [latchAll_frame]

/-- `PinChange` writes PINLVL, TRIGQ and TRIG_OVERRUN alone (R286). -/
theorem pinChange_frame (p : Nat) (v : Bool) (s : State) :
    pinChange p v s = { s with
      pinLvl := (pinChange p v s).pinLvl
      trigq := (pinChange p v s).trigq
      trigOverrun := (pinChange p v s).trigOverrun } := by
  unfold pinChange
  split_ifs
  · rfl
  · rfl
  · rw [latch_frame]
    rfl
  · rfl

/-- `t` is `s` up to the fields that a Dispatch can write (R250, R289). -/
def DispatchFrame (s t : State) : Prop :=
  t = { s with
    tmr := t.tmr, bind := t.bind, ch := t.ch, eng := t.eng, ring := t.ring, trigq := t.trigq, evt := t.evt,
    busLog := t.busLog, busScript := t.busScript, free := t.free }

theorem DispatchFrame.refl (s : State) : DispatchFrame s s := rfl

theorem DispatchFrame.trans {s t u : State} (hst : DispatchFrame s t) (htu : DispatchFrame t u) :
    DispatchFrame s u := by
  unfold DispatchFrame at *
  rw [hst] at htu
  exact htu

theorem stopProcedure_dispatchFrame (s : State) : DispatchFrame s (stopProcedure s) := by
  unfold DispatchFrame
  rw [stopProcedure_frame]

theorem dispatchFrame_kept (s : State) : DispatchKept (DispatchFrame s) where
  traces h hp := hp.trans (by unfold DispatchFrame; rw [h])
  taken _ hp := hp.trans rfl
  fireCounted hp := hp.trans rfl
  served _ _ _ hp := hp.trans rfl
  stopped hp := hp.trans (stopProcedure_dispatchFrame _)

theorem dispatchStep_frame {s t : State} (h : dispatchStep s = .next t) : DispatchFrame s t :=
  (dispatchFrame_kept s).dispatchStep (.refl s) h

/-- The foreground writes neither US nor TRIG_OVERRUN (R32, R50). -/
theorem us_foregroundKept (x : BitVec 64) : ForegroundKept (·.us = x) where
  bookkeeping h hp := by rw [h]; exact hp
  command h hp := by rw [h.effect.frame]; exact hp
  popped _ hp := hp

/-- Settles O59, agent by agent: only UsTick and reset write US. -/
theorem onlyTickAdvancesUs : Obligations.OnlyTickAdvancesUs := by
  intro s t h hne
  have hadv : s.advance.us = s.us := by rw [advance_frame]
  rcases step_agent h with ⟨u, hu, _, _, hstep⟩ | ⟨hm, hd, _, hstep⟩
  · have hus : t.us = s.us := by rw [dispatchStep_frame hstep, hu]
    exact absurd hus hne
  · refine ⟨hm, ?_⟩
    cases ha : s.nextAgent <;> rw [ha] at hstep
    case usTick =>
      cases hstep
      rw [usTick_frame, hadv]
      exact .inl ⟨rfl, rfl⟩
    case pinChange p v =>
      cases hstep
      rw [pinChange_frame] at hne
      exact absurd hadv hne
    case dispatch => exact absurd ha hd
    case host words => exact absurd ((us_foregroundKept s.us).host (fun _ _ _ hp => hp) hadv hstep) hne
    case reset =>
      cases hstep
      exact .inr ⟨rfl, rfl⟩

/-- `Latch` never clears TRIG_OVERRUN (R287). -/
theorem latch_trigOverrun {s : State} (src : TrigSource) (val : Bool) (h : s.trigOverrun = true) :
    (s.latch src val).trigOverrun = true := by
  rcases latch_cases src val s with ⟨_, hl⟩ | ⟨_, hl⟩ <;> rw [hl]
  exact h

theorem latchAll_trigOverrun {s : State} (is : List Nat) (h : s.trigOverrun = true) :
    (is.foldl (fun s' i => s'.latch (.timer i) false) s).trigOverrun = true := by
  induction is generalizing s with
  | nil => exact h
  | cons i is ih => exact ih (latch_trigOverrun _ _ h)

theorem pinChange_trigOverrun {s : State} (p : Nat) (v : Bool) (h : s.trigOverrun = true) :
    (pinChange p v s).trigOverrun = true := by
  unfold pinChange
  split_ifs
  · exact h
  · exact h
  · exact latch_trigOverrun _ _ h
  · exact h

theorem trigOverrun_stepKept : StepKept (·.trigOverrun = true) where
  bookkeeping h hp := by rw [h]; exact hp
  command h hp := by rw [h.effect.frame]; exact hp
  popped _ hp := hp
  traces h hp := by rw [h]; exact hp
  taken _ hp := hp
  fireCounted hp := hp
  served _ _ _ hp := hp
  stopped hp := by rw [stopProcedure_frame]; exact hp
  readEnded hp := hp
  ticked _ hp := latchAll_trigOverrun _ hp
  pinChanged p v _ hp := pinChange_trigOverrun p v hp

/-- An eviction sets OVF and nothing else of a push writes it (R85, R86). -/
theorem push_ovf {cap : Nat} {rec : List Byte} {r r' : Ring} (h : push cap rec r = .ok r') (hp : r.ovf = true) :
    r'.ovf = true := by
  obtain ⟨r1, hevict, rfl⟩ := push_ok h
  obtain ⟨_, _, _, _, rfl | ⟨_, hovf⟩⟩ := evictLoop_ok hevict
  · exact hp
  · exact hovf

theorem ovf_foregroundKept : ForegroundKept (·.ring.ovf = true) where
  bookkeeping h hp := by rw [h]; exact hp
  command h hp := by rw [h.effect.frame]; exact hp
  popped hpop hp := (popOne_ok hpop).2.1.trans hp

theorem ovf_dispatchKept : DispatchKept (·.ring.ovf = true) where
  traces h hp := by rw [h]; exact hp
  taken _ hp := hp
  fireCounted hp := hp
  served _ _ hpush hp := push_ovf hpush hp
  stopped hp := by rw [stopProcedure_frame]; exact hp

/-- OVF survives every step but reset and the RdEnd of a read (R48). -/
theorem step_ovf {s t : State} (h : step s = .next t) (hp : s.ring.ovf = true) :
    t.ring.ovf = true ∨ (s.mustDispatch = false ∧ (s.nextAgent = .reset ∨
      ((∃ words, s.nextAgent = .host words) ∧ s.rd.busy = true ∧ s.rd.left = 0))) := by
  have hadv : s.advance.ring.ovf = true := by rw [advance_frame]; exact hp
  have hrd : s.advance.rd = s.rd := by rw [advance_frame]
  rcases step_agent h with ⟨u, hu, _, _, hstep⟩ | ⟨hm, hd, _, hstep⟩
  · exact .inl (ovf_dispatchKept.dispatchStep (ovf_foregroundKept.bookkeeping hu hp) hstep)
  · cases ha : s.nextAgent <;> rw [ha] at hstep
    case usTick =>
      cases hstep
      rw [usTick_frame]
      exact .inl hadv
    case pinChange p v =>
      cases hstep
      rw [pinChange_frame]
      exact .inl hadv
    case dispatch => exact absurd ha hd
    case host words =>
      by_cases hend : s.rd.busy = true ∧ s.rd.left = 0
      · exact .inr ⟨hm, .inr ⟨⟨words, rfl⟩, hend⟩⟩
      · refine .inl (ovf_foregroundKept.host (fun hb hl => ?_) hadv hstep)
        exact absurd (hrd ▸ ⟨hb, hl⟩) hend
    case reset => exact .inr ⟨hm, .inl rfl⟩

/-- Settles O60: OVF by `step_ovf`, TRIG_OVERRUN because every step but reset keeps it set. -/
theorem stickyFlags : Obligations.StickyFlags := by
  intro s t h
  refine ⟨fun hset hclear => ?_, fun hset hclear => ?_⟩
  · exact (step_ovf h hset).resolve_left (by simp [hclear])
  · obtain ⟨hm, hr, _⟩ := (trigOverrun_stepKept.step hset h).resolve_left (by simp [hclear])
    exact ⟨hm, hr⟩

/-- Settles O48, table by table: every entry is the one of reset. -/
theorem resetValues : Obligations.ResetValues := by
  intro s
  refine ⟨resetStep s, rfl, rfl, ?_, ?_, ?_, rfl, ?_, ?_, rfl, rfl, rfl, rfl, rfl, rfl, rfl, rfl, rfl, rfl, rfl, rfl,
    ?_⟩
  · intro b hb
    rw [List.eq_of_mem_replicate hb]
    rfl
  · intro b hb
    rw [List.eq_of_mem_replicate hb]
    rfl
  · intro x hx
    rw [List.eq_of_mem_replicate hx]
    exact ⟨rfl, rfl⟩
  · intro b hb
    rw [List.eq_of_mem_replicate hb]
    rfl
  · intro d hd
    rw [List.eq_of_mem_replicate hd]
    exact ⟨rfl, rfl⟩
  · have hinvalid : Channel.reset.valid = false := rfl
    simp [State.engineState, resetStep, State.resetWith, hinvalid]

end Sys2Proof.Machine
end

section
/-! SUPPORT. The descriptors (10_state.md R41, R45) and the buses the armed channels use (R57 I1, I7): only STR_CFG writes a
descriptor, and no command writes a configured bus that is in use. -/

namespace Sys2Proof.Machine

/-- `t` has the descriptors of `s`, channel by channel (R41). -/
def SameDescriptors (s t : State) : Prop := t.ch.map Channel.descriptor = s.ch.map Channel.descriptor

theorem SameDescriptors.refl (s : State) : SameDescriptors s s := rfl

theorem SameDescriptors.trans {s t u : State} (hst : SameDescriptors s t) (htu : SameDescriptors t u) :
    SameDescriptors s u := Eq.trans htu hst

/-- Writing run-time fields alone (R42) keeps the descriptors. -/
theorem sameDescriptors_of_map {s t : State} {f : Channel → Channel} (ht : t.ch = s.ch.map f)
    (hf : ∀ d, (f d).descriptor = d.descriptor) : SameDescriptors s t := by
  unfold SameDescriptors
  rw [ht, List.map_map]
  exact List.map_congr_left fun d _ => hf d

theorem countFire_descriptor (d : Channel) : d.countFire.descriptor = d.descriptor := by
  unfold Channel.countFire
  split <;> rfl

theorem counted_descriptor (cap : BitVec 16) (d : Channel) : (d.counted cap).descriptor = d.descriptor := by
  unfold Channel.counted
  split <;> rfl

theorem startPolling_descriptor (base : Nat) (d : Channel) : (d.startPolling base).descriptor = d.descriptor := by
  unfold Channel.startPolling
  split <;> rfl

theorem startInterrupt_descriptor (d : Channel) : d.startInterrupt.descriptor = d.descriptor := by
  unfold Channel.startInterrupt
  split <;> rfl

theorem setChannel_sameDescriptors {s : State} {c : Nat} {d : Channel}
    (h : d.descriptor = (s.channel c).descriptor) : SameDescriptors s (s.setChannel c d) := by
  unfold SameDescriptors
  refine List.ext_getElem? fun k => ?_
  by_cases hk : c = k
  · subst hk
    by_cases hlt : c < s.ch.length <;> simp_all [State.channel]
  · simp [List.getElem?_set_ne hk]

theorem count_sameDescriptors (c : Nat) (s : State) : SameDescriptors s (s.count c) :=
  setChannel_sameDescriptors (counted_descriptor _ _)

theorem stopProcedure_sameDescriptors (s : State) : SameDescriptors s (stopProcedure s) :=
  sameDescriptors_of_map rfl fun _ => rfl

/-- Every entry has the descriptor of an entry before. -/
theorem SameDescriptors.mem {s t : State} (h : SameDescriptors s t) {d : Channel} (hd : d ∈ t.ch) :
    ∃ d0 ∈ s.ch, d0.descriptor = d.descriptor := by
  have hmem : d.descriptor ∈ s.ch.map Channel.descriptor := h ▸ List.mem_map_of_mem hd
  exact List.mem_map.mp hmem

theorem SameDescriptors.channel {s t : State} (h : SameDescriptors s t) (c : Nat) :
    (t.channel c).descriptor = (s.channel c).descriptor := by
  have hmap : ∀ u : State, (u.channel c).descriptor = (u.ch.map Channel.descriptor).getD c Channel.reset := fun u =>
    (channel_map u Channel.descriptor rfl c).symm
  rw [hmap, hmap, h]

/-- A channel is valid when its descriptor is: `valid` is a field of the descriptor (R41). -/
theorem SameDescriptors.valid {s t : State} (h : SameDescriptors s t) (c : Nat) :
    (t.channel c).valid = (s.channel c).valid := by
  have hvalid := congrArg Channel.valid (h.channel c)
  exact hvalid

/-- What STR_CFG has checked is about the descriptor alone (R45). -/
theorem descriptorOk_congr {p : Params} {d d0 : Channel} (h : d0.descriptor = d.descriptor) :
    d.DescriptorOk p ↔ d0.DescriptorOk p := by
  change d.descriptor.DescriptorOk p ↔ d0.descriptor.DescriptorOk p
  rw [h]

theorem SameDescriptors.descriptorsOk {s t : State} (h : SameDescriptors s t) (hcfg : t.cfg = s.cfg)
    (hs : s.DescriptorsOk) : t.DescriptorsOk := by
  intro d hd hv
  obtain ⟨d0, hd0, heq⟩ := h.mem hd
  rw [descriptorOk_congr heq, hcfg]
  exact hs d0 hd0 ((congrArg Channel.valid heq).trans hv)

/-- What a command can do to the descriptors (R210): nothing, or while the engine is not armed store one that passed the
checks of STR_CFG. -/
theorem CommandAction.descriptors {s e : State} (h : CommandAction s e) :
    SameDescriptors s e ∨ ∃ c d, s.eng.armed = false ∧ d.valid = true ∧ d.DescriptorOk s.cfg ∧
      e = s.setChannel c d := by
  have same : e.ch = s.ch → SameDescriptors s e := fun hch => by
    unfold SameDescriptors
    rw [hch]
  cases h with
  | descriptorStored c d idle valid _ ok => exact .inr ⟨c, d, idle, valid, ok, rfl⟩
  | pollingStarted cap _ _ _ => exact .inl (sameDescriptors_of_map rfl (startPolling_descriptor _))
  | interruptStarted cap _ _ => exact .inl (sameDescriptors_of_map rfl startInterrupt_descriptor)
  | engineStopped => exact .inl (stopProcedure_sameDescriptors s)
  | busConfigured r speed bmode _ => exact .inl (same (by unfold State.configureBus; split <;> rfl))
  | busReleased r _ => exact .inl (same (by unfold State.deconfigureBus; split <;> rfl))
  | timerStopped i _ => exact .inl (same (by rcases stopTimer_cases i s with ⟨_, h⟩ | ⟨_, h⟩ <;> rw [h] <;> rfl))
  | pinDetached p _ => exact .inl (same (by rcases unbind_cases p s with ⟨_, h⟩ | ⟨_, h⟩ <;> rw [h] <;> rfl))
  | nothing | spiConfigured | timerBound | timerStarted | timerCleared | pinAttached => exact .inl rfl

/-- The Dispatcher keeps every predicate of the parameters and the descriptors alone (R42). -/
theorem dispatchKept_of_descriptors {P : State → Prop}
    (same : ∀ {s t : State}, SameDescriptors s t → t.cfg = s.cfg → P s → P t) : DispatchKept P where
  traces h := same (by rw [h]; exact .refl _) (by rw [h])
  taken _ := same rfl rfl
  fireCounted := same (sameDescriptors_of_map rfl countFire_descriptor) rfl
  served _ _ _ := same (count_sameDescriptors _ _) rfl
  stopped := same (stopProcedure_sameDescriptors _) (stopProcedure_effect _).shape.cfg

/-- Every step but reset keeps such a predicate when storing a checked descriptor does. -/
theorem stepKept_of_descriptors {P : State → Prop}
    (same : ∀ {s t : State}, SameDescriptors s t → t.cfg = s.cfg → P s → P t)
    (stored : ∀ {s : State} {c : Nat} {d : Channel}, d.valid = true → d.DescriptorOk s.cfg → P s →
      P (s.setChannel c d)) : StepKept P where
  toDispatchKept := dispatchKept_of_descriptors same
  bookkeeping h := same (by rw [h]; exact .refl _) (by rw [h])
  command h hp := by
    rcases h.descriptors with hsame | ⟨c, d, _, valid, ok, rfl⟩
    · exact same hsame h.effect.shape.cfg hp
    · exact stored valid ok hp
  popped _ := same rfl rfl
  readEnded := same rfl rfl
  ticked _ := same (by rw [usTick_frame]; exact .refl _) (usTick_sameShape _).cfg
  pinChanged _ _ _ := same (by rw [pinChange_frame]; exact .refl _) (pinChange_sameShape _ _ _).cfg

theorem descriptorsOk_setChannel {s : State} {c : Nat} {d : Channel} (hd : d.DescriptorOk s.cfg)
    (hs : s.DescriptorsOk) : (s.setChannel c d).DescriptorsOk := by
  intro x hx hv
  rcases List.mem_or_eq_of_mem_set hx with hmem | rfl
  · exact hs x hmem hv
  · exact hd

theorem descriptorsOk_stepKept : StepKept State.DescriptorsOk :=
  stepKept_of_descriptors SameDescriptors.descriptorsOk fun _ => descriptorsOk_setChannel

/-- After reset no channel holds a descriptor (R55). -/
theorem resetStep_descriptorsOk (s : State) : (resetStep s).DescriptorsOk := by
  intro d hd hv
  rw [List.eq_of_mem_replicate hd] at hv
  cases hv

/-- Settles O51: STR_CFG stores what it has checked, and nothing else but reset writes a descriptor. -/
theorem stepKeepsDescriptors : Obligations.StepKeepsDescriptors := by
  intro s t _ hs h
  rcases descriptorsOk_stepKept.step hs h with ht | ⟨_, _, rfl⟩
  · exact ht
  · exact resetStep_descriptorsOk _

theorem valid_setChannel {s : State} {c k : Nat} {d : Channel} (hd : d.valid = true) (hs : (s.channel k).valid = true) :
    ((s.setChannel c d).channel k).valid = true := by
  by_cases hk : k = c
  · subst hk
    by_cases hlt : k < s.ch.length
    · rw [State.channel_setChannel_same s k d hlt, hd]
    · rw [← hs, State.setChannel, List.set_eq_of_length_le (Nat.not_lt.mp hlt)]
  · rw [State.channel_setChannel_ne s c k d hk, hs]

/-- Settles O58: STR_CFG writes `valid` 1, and nothing else but reset writes it. -/
theorem noReturnToUnconfigured : Obligations.NoReturnToUnconfigured := by
  intro s t c _ h hreset hv
  have kept : StepKept fun u => (u.channel c).valid = true :=
    stepKept_of_descriptors (fun hsame _ hs => (hsame.valid c).trans hs) fun hd _ hs => valid_setChannel hd hs
  exact (kept.step hv h).resolve_right fun ⟨hm, hr, _⟩ => hreset hm hr

/-! ## The buses of armed channels -/

/-- `t` has the entry that `s` has for a bus reference (R36). -/
def SameBus (s t : State) (r : BusRef) : Prop :=
  (r.kind = .i2c → t.i2cBus r.idx.toNat = s.i2cBus r.idx.toNat) ∧
  (r.kind = .spi → t.spiBus r.idx.toNat = s.spiBus r.idx.toNat)

theorem sameBus_of_tables {s t : State} (hi : t.i2c = s.i2c) (hs : t.spi = s.spi) (r : BusRef) : SameBus s t r := by
  unfold SameBus State.i2cBus State.spiBus
  rw [hi, hs]
  exact ⟨fun _ => rfl, fun _ => rfl⟩

theorem SameBus.busConfigured {s t : State} {r : BusRef} (h : SameBus s t r) :
    t.busConfigured r = s.busConfigured r := by
  unfold State.busConfigured
  cases hk : r.kind
  · simp only [h.1 hk]
  · simp only [h.2 hk]

/-- Two references of one kind with one index are the same (R36). -/
theorem busRef_ext {r q : BusRef} (hk : q.kind = r.kind) (hi : q.idx.toNat = r.idx.toNat) : q = r := by
  obtain ⟨k, i⟩ := q
  obtain ⟨k', i'⟩ := r
  have hidx : i = i' := BitVec.eq_of_toNat_eq hi
  exact congrArg₂ BusRef.mk hk hidx

theorem setI2cBus_sameBus {s : State} {r q : BusRef} (hr : r.kind = .i2c) (hq : q ≠ r) (b : I2cBus) :
    SameBus s (s.setI2cBus r.idx.toNat b) q :=
  ⟨fun hk => State.i2cBus_setI2cBus_ne s _ _ b fun hi => hq (busRef_ext (hk.trans hr.symm) hi), fun _ => rfl⟩

theorem setSpiBus_sameBus {s : State} {q : BusRef} {i : Nat} (hq : q.kind = .spi → q.idx.toNat ≠ i) (b : SpiBus) :
    SameBus s (s.setSpiBus i b) q :=
  ⟨fun _ => rfl, fun hk => State.spiBus_setSpiBus_ne s _ _ b (hq hk)⟩

theorem drawFree_sameBus {s t : State} {q : BusRef} (h : SameBus s t q) : SameBus s t.drawFree q := h

theorem configureBus_sameBus {s : State} {r q : BusRef} (speed : Byte) (bmode : BitVec 4) (hq : q ≠ r) :
    SameBus s (s.configureBus r speed bmode) q := by
  unfold State.configureBus
  split
  · next hr => exact setI2cBus_sameBus hr hq _
  · next hr => exact setSpiBus_sameBus (fun hk hi => hq (busRef_ext (hk.trans hr.symm) hi)) _

theorem deconfigureBus_sameBus {s : State} {r q : BusRef} (hq : q ≠ r) : SameBus s (s.deconfigureBus r) q := by
  unfold State.deconfigureBus
  split
  · next hr => exact drawFree_sameBus (setI2cBus_sameBus hr hq _)
  · next hr => exact drawFree_sameBus (setSpiBus_sameBus (fun hk hi => hq (busRef_ext (hk.trans hr.symm) hi)) _)

/-- No command writes a bus that is configured and in use (R57 I1, R161, R162, R164). -/
theorem CommandAction.sameBus {s e : State} (h : CommandAction s e) {q : BusRef} (hc : s.busConfigured q = true)
    (hu : s.busInUse q = true) : SameBus s e q := by
  cases h with
  | busConfigured r speed bmode fresh =>
    exact configureBus_sameBus speed bmode fun hq => Bool.false_ne_true (fresh.symm.trans (hq ▸ hc))
  | spiConfigured i b fresh _ =>
    refine setSpiBus_sameBus (fun hk hi => ?_) b
    simp only [State.busConfigured, hk, hi] at hc
    exact Bool.false_ne_true (fresh.symm.trans hc)
  | busReleased r unused =>
    exact deconfigureBus_sameBus fun hq => Bool.false_ne_true (unused.symm.trans (hq ▸ hu))
  | timerStopped i _ =>
    rcases stopTimer_cases i s with ⟨_, h⟩ | ⟨_, h⟩ <;> rw [h] <;> exact sameBus_of_tables rfl rfl q
  | pinDetached p _ =>
    rcases unbind_cases p s with ⟨_, h⟩ | ⟨_, h⟩ <;> rw [h] <;> exact sameBus_of_tables rfl rfl q
  | engineStopped =>
    rw [stopProcedure_frame]
    exact sameBus_of_tables rfl rfl q
  | nothing | timerBound | timerStarted | timerCleared | pinAttached | descriptorStored | pollingStarted
  | interruptStarted => exact sameBus_of_tables rfl rfl q

/-- The bus of a channel of the armed mode is in use (R164). -/
theorem busInUse_of_mem {s : State} (ha : s.eng.armed = true) {d : Channel} (hd : d ∈ s.ch)
    (hm : d.matchesMode s.eng.amode = true) : s.busInUse d.bus = true := by
  have hmem : d ∈ s.matching s.eng.amode := List.mem_filter.mpr ⟨hd, hm⟩
  simp only [State.busInUse, ha, Bool.true_and, List.any_eq_true]
  exact ⟨d, hmem, decide_eq_true rfl⟩

/-- What a foreground step can do, with the action of the command it runs (R9, R217). -/
theorem foregroundStep_acts {s t : State} (h : foregroundStep s = .next t) :
    (∃ r, Bookkeeping (s.setRing r) t) ∨ ∃ u e, Bookkeeping s u ∧ CommandAction u e ∧ Bookkeeping e t := by
  rcases foregroundStep_cases s with ⟨_, _, hs⟩ | ⟨_, _, hs⟩ | ⟨_, _, hs⟩ | ⟨_, frame, rest, _, hs⟩ <;> rw [hs] at h
  · exact .inl ⟨_, rdEnd_ok h⟩
  · obtain ⟨out, r, _, hbook⟩ := rdPop_ok h
    exact .inl ⟨r, hbook⟩
  · cases h
    exact .inl ⟨s.ring, .refl s⟩
  · obtain ⟨e, hact, hbook⟩ := runFrame_acts frame _ t h
    exact .inr ⟨_, e, setCmdPort_bookkeeping rest s, hact, hbook⟩

/-- `t` has the descriptors of `s` and the entries of the configured buses that are in use (R57 I7). -/
def ArmedFixed (s t : State) : Prop :=
  SameDescriptors s t ∧ ∀ q, s.busConfigured q = true → s.busInUse q = true → SameBus s t q

theorem armedFixed_of_tables {s t : State} (hd : SameDescriptors s t) (hi : t.i2c = s.i2c) (hs : t.spi = s.spi) :
    ArmedFixed s t := ⟨hd, fun q _ _ => sameBus_of_tables hi hs q⟩

theorem ArmedFixed.bookkeeping {s u e t : State} (hsu : Bookkeeping s u) (h : ArmedFixed u e) (het : Bookkeeping e t) :
    ArmedFixed s t := by
  unfold Bookkeeping at *
  rw [het]
  rw [hsu] at h
  exact h

theorem host_armedFixed {s t : State} {words : List Word} (ha : s.eng.armed = true)
    (h : agentStep (.host words) s = .next t) : ArmedFixed s t := by
  have haccept := acceptWords_bookkeeping words s
  rcases foregroundStep_acts h with ⟨r, hbook⟩ | ⟨u, e, hu, hact, hbook⟩
  · have hring : ArmedFixed _ ((s.acceptWords words).setRing r) := armedFixed_of_tables rfl rfl rfl
    exact .bookkeeping haccept hring hbook
  · have hsu := haccept.trans hu
    refine .bookkeeping hsu ⟨hact.descriptors.resolve_right ?_, fun q => hact.sameBus⟩ hbook
    rintro ⟨_, _, idle, _⟩
    rw [hsu] at idle
    exact Bool.false_ne_true (idle.symm.trans ha)

theorem dispatchStep_armedFixed {s t : State} (h : dispatchStep s = .next t) : ArmedFixed s t := by
  have kept : DispatchKept (SameDescriptors s) := dispatchKept_of_descriptors fun hsame _ hs => hs.trans hsame
  have hframe := dispatchStep_frame h
  exact armedFixed_of_tables (kept.dispatchStep (.refl s) h) (by rw [hframe]) (by rw [hframe])

/-- While the engine is armed every step but reset keeps the descriptors and the buses in use (R57 I7). -/
theorem step_armedFixed {s t : State} (ha : s.eng.armed = true) (h : step s = .next t)
    (hreset : s.mustDispatch = false → s.nextAgent ≠ .reset) : ArmedFixed s t := by
  rcases step_agent h with ⟨u, hu, _, _, hstep⟩ | ⟨hm, hd, _, hstep⟩
  · exact .bookkeeping hu (dispatchStep_armedFixed hstep) (.refl t)
  · refine .bookkeeping (advance_bookkeeping s) ?_ (.refl t)
    cases hn : s.nextAgent <;> rw [hn] at hstep
    case usTick =>
      cases hstep
      rw [usTick_frame]
      exact armedFixed_of_tables rfl rfl rfl
    case pinChange p v =>
      cases hstep
      rw [pinChange_frame]
      exact armedFixed_of_tables rfl rfl rfl
    case dispatch => exact absurd hn hd
    case host words => exact host_armedFixed (by rw [advance_frame]; exact ha) hstep
    case reset => exact absurd hn (hreset hm)

/-- Settles O57: the channels of the armed mode put their buses in use. -/
theorem armedDescriptorsFixed : Obligations.ArmedDescriptorsFixed := by
  intro s t _ ha h hreset
  obtain ⟨hdesc, hbus⟩ := step_armedFixed ha h hreset
  refine ⟨hdesc, fun d hd hv hmode hconf => hbus d.bus hconf (busInUse_of_mem ha hd ?_)⟩
  exact (matchesMode_iff _ d).mpr ⟨hv, hmode⟩

end Sys2Proof.Machine
end

section
/-! SUPPORT. TRIGQ, TRIG_OVERRUN and the command port (10_state.md R49, R50, 60_exceptions.md R287, R301, R10): only UsTick
and PinChange latch, and under PROMPT they step with TRIGQ empty. -/

namespace Sys2Proof.Machine

/-- TRIGQ of `t` is what is left of that of `s`, with the same US, TRIG_OVERRUN and parameters: no trigger was latched. -/
structure Drained (s t : State) : Prop where
  queue : t.trigq.Sublist s.trigq
  us : t.us = s.us
  overrun : t.trigOverrun = s.trigOverrun
  cfg : t.cfg = s.cfg

theorem stopTimer_trigq (i : Nat) (s : State) : (s.stopTimer i).trigq = s.trigq := by
  rcases stopTimer_cases i s with ⟨_, h⟩ | ⟨_, h⟩ <;> rw [h]
  rfl

theorem unbind_trigq (p : Nat) (s : State) : (s.unbind p).trigq = s.trigq := by
  rcases unbind_cases p s with ⟨_, h⟩ | ⟨_, h⟩ <;> rw [h]
  rfl

theorem disarmTrigger_trigq (s : State) : s.disarmTrigger.trigq.Sublist s.trigq := by
  unfold State.disarmTrigger
  split
  · rw [State.purge_trigq, stopTimer_trigq]
    exact List.filter_sublist
  · exact List.filter_sublist

/-- No command latches a trigger (R280). -/
theorem CommandAction.drained {s e : State} (h : CommandAction s e) : Drained s e := by
  have hframe := h.effect.frame
  refine ⟨?_, by rw [hframe], by rw [hframe], by rw [hframe]⟩
  clear hframe
  cases h with
  | timerStopped i _ =>
    rw [State.purge_trigq, stopTimer_trigq]
    exact List.filter_sublist
  | pinDetached p _ =>
    rw [State.purge_trigq, unbind_trigq]
    exact List.filter_sublist
  | timerBound | pinAttached | pollingStarted | interruptStarted => exact List.filter_sublist
  | engineStopped => exact disarmTrigger_trigq s
  | busConfigured r speed bmode _ =>
    unfold State.configureBus
    split <;> exact .refl _
  | busReleased r _ =>
    unfold State.deconfigureBus
    split <;> exact .refl _
  | nothing | spiConfigured | timerStarted | timerCleared | descriptorStored => exact .refl _

/-! ## Latches -/

theorem latch_queueOk {s : State} (src : TrigSource) (val : Bool) (h : s.QueueOk) : (s.latch src val).QueueOk := by
  rcases latch_cases src val s with ⟨hlt, hl⟩ | ⟨_, hl⟩ <;> rw [hl]
  · simpa [State.QueueOk] using hlt
  · exact h

theorem latchAll_queueOk {s : State} (is : List Nat) (h : s.QueueOk) :
    (is.foldl (fun s' i => s'.latch (.timer i) false) s).QueueOk := by
  induction is generalizing s with
  | nil => exact h
  | cons i is ih => exact ih (latch_queueOk _ _ h)

theorem latch_of_room {s : State} (src : TrigSource) (val : Bool) (h : s.trigq.length < s.cfg.trigqDepth) :
    s.latch src val = { s with trigq := s.trigq ++ [{ src := src, val := val, ts := s.us }] } := by
  simp [State.latch, h]

/-- With room for all of them every fire enters TRIGQ, stamped with US (R285, R287). -/
theorem latchAll_of_room {s : State} {is : List Nat} (h : s.trigq.length + is.length ≤ s.cfg.trigqDepth) :
    is.foldl (fun s' i => s'.latch (.timer i) false) s =
      { s with trigq := s.trigq ++ is.map fun i => { src := .timer i, val := false, ts := s.us } } := by
  induction is generalizing s with
  | nil => simp
  | cons i is ih =>
    simp only [List.length_cons] at h
    rw [List.foldl_cons, latch_of_room _ _ (by omega), ih (by simp; omega)]
    simp

theorem firing_length (s : State) : s.firing.length ≤ s.cfg.nTimers := by
  simpa [State.firing] using List.length_filter_le (fun i => (s.timer i).fires) (List.range s.cfg.nTimers)

/-! ## The queue invariant -/

/-- TRIGQ within its bounds under allowed parameters (R6, R49, R301). -/
structure QueueInv (s : State) : Prop where
  cfg : s.cfg.Ok
  queue : s.QueueOk
  prompt : s.PromptOk

theorem nTimers_pos {p : Params} (h : p.Ok) : 1 ≤ p.nTimers := by
  obtain ⟨_, _, ⟨hpos, _⟩, _⟩ := h
  exact hpos

theorem trigqDepth_room {p : Params} (h : p.Ok) : p.nTimers + 1 ≤ p.trigqDepth := by
  obtain ⟨_, _, _, _, _, _, _, _, _, hdepth, _⟩ := h
  exact hdepth

theorem Drained.queueInv {s t : State} (h : Drained s t) (hs : QueueInv s) : QueueInv t where
  cfg := h.cfg ▸ hs.cfg
  queue := by
    unfold State.QueueOk
    rw [h.cfg]
    exact h.queue.length_le.trans hs.queue
  prompt := by
    unfold State.PromptOk
    rw [h.cfg, h.us, h.overrun]
    intro hp
    obtain ⟨hlen, hover, hts⟩ := hs.prompt hp
    exact ⟨h.queue.length_le.trans hlen, hover, fun e he => hts e (h.queue.subset he)⟩

/-- Under PROMPT UsTick latches into an empty TRIGQ at most one trigger a timer, at the new US (R285, R301). -/
theorem usTick_queueInv {s : State} (hwait : s.cfg.dispatchModel = .prompt → s.trigq = []) (hs : QueueInv s) :
    QueueInv (usTick s) where
  cfg := (usTick_sameShape s).cfg ▸ hs.cfg
  queue := latchAll_queueOk _ hs.queue
  prompt := by
    intro hp
    rw [(usTick_sameShape s).cfg] at hp
    have hempty := hwait hp
    have hdepth := trigqDepth_room hs.cfg
    have hfire := firing_length s
    have hover := (hs.prompt hp).2.1
    unfold usTick
    rw [latchAll_of_room (by simp only [hempty, List.length_nil]; omega)]
    exact ⟨by simpa [hempty] using hfire, hover, by simp [hempty]⟩

/-- Under PROMPT an edge latches into an empty TRIGQ (R286, R301). -/
theorem pinChange_queueInv {s : State} (p : Nat) (v : Bool) (hwait : s.cfg.dispatchModel = .prompt → s.trigq = [])
    (hs : QueueInv s) : QueueInv (pinChange p v s) := by
  have hlevel : QueueInv (s.setPinLevel p v) := ⟨hs.cfg, hs.queue, hs.prompt⟩
  unfold pinChange
  split_ifs
  · exact hs
  · exact hs
  · have hcfg := (latch_sameShape (.pin p) v (s.setPinLevel p v)).cfg
    refine ⟨hcfg ▸ hs.cfg, latch_queueOk _ _ hlevel.queue, fun hp => ?_⟩
    rw [hcfg] at hp
    have hempty : s.trigq = [] := hwait hp
    have hdepth : s.cfg.nTimers + 1 ≤ s.cfg.trigqDepth := trigqDepth_room hs.cfg
    have htimers : 1 ≤ s.cfg.nTimers := nTimers_pos hs.cfg
    have hroom : (s.setPinLevel p v).trigq.length < (s.setPinLevel p v).cfg.trigqDepth := by
      rw [State.setPinLevel_trigq, hempty, State.setPinLevel_cfg, List.length_nil]
      omega
    rw [latch_of_room _ _ hroom]
    exact ⟨by simpa [hempty] using htimers, (hs.prompt hp).2.1, by simp [hempty]⟩
  · exact hlevel

theorem queueInv_stepKept : StepKept QueueInv where
  bookkeeping h hs := by
    rw [h]
    exact ⟨hs.cfg, hs.queue, hs.prompt⟩
  command h hs := h.drained.queueInv hs
  popped _ hs := ⟨hs.cfg, hs.queue, hs.prompt⟩
  traces h hs := by
    rw [h]
    exact ⟨hs.cfg, hs.queue, hs.prompt⟩
  taken {s e rest} hq hs := by
    have hd : Drained s { s with trigq := rest } := ⟨hq ▸ List.sublist_cons_self e rest, rfl, rfl, rfl⟩
    exact hd.queueInv hs
  fireCounted hs := ⟨hs.cfg, hs.queue, hs.prompt⟩
  served _ _ _ hs := ⟨hs.cfg, hs.queue, hs.prompt⟩
  stopped hs := CommandAction.engineStopped.drained.queueInv hs
  readEnded hs := ⟨hs.cfg, hs.queue, hs.prompt⟩
  ticked := usTick_queueInv
  pinChanged := pinChange_queueInv

theorem resetStep_queueInv {s : State} (h : s.cfg.Ok) : QueueInv (resetStep s) :=
  ⟨h, Nat.zero_le _, fun _ => ⟨Nat.zero_le _, rfl, nofun⟩⟩

/-! ## The command port -/

theorem frameWords_pos (h : Word) : 0 < frameWords h := by
  unfold frameWords
  split <;> omega

/-- A frame that was split off is whole and has no words after it (R121). -/
theorem splitFrame_frame {ws frame rest : List Word} (h : splitFrame ws = some (frame, rest)) :
    splitFrame frame = some (frame, []) := by
  unfold splitFrame at h
  split at h
  · cases h
  · next w ws =>
    split at h <;> cases h
    next hle =>
      obtain ⟨n, hn⟩ := Nat.exists_eq_add_of_lt (frameWords_pos w)
      simp only [List.length_cons] at hle
      simp only [hn, Nat.zero_add, List.take_succ_cons, splitFrame, List.length_cons, List.length_take]
      rw [if_pos (by omega)]
      simp

/-- A command leaves the command port alone (R10). -/
theorem runFrame_cmdPort {frame : List Word} {s t : State} (h : runFrame frame s = .next t) :
    t.cmdPort = s.cmdPort := by
  rcases runFrame_cases frame s with ⟨i, _, hs⟩ | hs | ⟨opc, hs⟩ <;> rw [hs] at h
  · cases commandStep_of_exec h with
    | rejected | readBegun => rfl
    | accepted e payload effect =>
      rw [effect.frame]
      rfl
  · cases h
    rfl
  · cases h
    rfl

/-- A host step with no read in progress takes a whole frame from the port, or leaves the beginning of one (R10). -/
theorem host_portOk_idle {s t : State} {words : List Word} (hb : s.rd.busy = false) (hs : s.PortOk)
    (h : agentStep (.host words) s = .next t) : t.PortOk := by
  change foregroundStep (s.acceptWords words) = .next t at h
  rw [acceptWords_idle words s hb] at h
  rcases portAccept_cases s.cmdPort words with ⟨⟨x, hx⟩, _⟩ | ⟨_, hpart, hport⟩ | ⟨_, frame, rest, hframe, hport⟩
  · exact absurd (hs.1.symm.trans hx) nofun
  · rw [hport] at h
    rw [foregroundStep_waits (s := { s with cmdPort := s.cmdPort ++ words }) hb hpart] at h
    cases h
    refine ⟨hpart, fun hbusy => ?_⟩
    exact absurd (hb.symm.trans hbusy) Bool.false_ne_true
  · rw [hport] at h
    rw [foregroundStep_frame (s := { s with cmdPort := frame }) hb (splitFrame_frame hframe)] at h
    have hempty : t.cmdPort = [] := runFrame_cmdPort h
    exact ⟨hempty ▸ rfl, fun _ => hempty⟩

/-- A step of a read in progress leaves the empty port empty (R10, R217). -/
theorem host_portOk_busy {s t : State} {words : List Word} (hb : s.rd.busy = true) (hs : s.PortOk)
    (h : agentStep (.host words) s = .next t) : t.PortOk := by
  change foregroundStep (s.acceptWords words) = .next t at h
  rw [acceptWords_busy words s hb] at h
  have hempty := hs.2 hb
  have hport : t.cmdPort = s.cmdPort := by
    rcases foregroundStep_cases s with ⟨_, _, hf⟩ | ⟨_, _, hf⟩ | ⟨hn, _⟩ | ⟨hn, _⟩
    · rw [hf] at h
      cases h
      rfl
    · rw [hf] at h
      unfold rdPop at h
      split at h <;> cases h
      rfl
    all_goals exact absurd (hb.symm.trans hn) nofun
  rw [hempty] at hport
  exact ⟨hport ▸ rfl, fun _ => hport⟩

theorem portOk_congr {s t : State} (hport : t.cmdPort = s.cmdPort) (hrd : t.rd = s.rd) (hs : s.PortOk) : t.PortOk := by
  unfold State.PortOk
  rwa [hport, hrd]

theorem step_portOk {s t : State} (h : step s = .next t) (hs : s.PortOk) : t.PortOk := by
  rcases step_agent h with ⟨u, _, hport, hrd, hstep⟩ | ⟨_, hd, _, hstep⟩
  · have hframe := dispatchStep_frame hstep
    exact portOk_congr (by rw [hframe, hport]) (by rw [hframe, hrd]) hs
  · have hadv : s.advance.PortOk := portOk_congr (by rw [advance_frame]) (by rw [advance_frame]) hs
    cases hn : s.nextAgent <;> rw [hn] at hstep
    case usTick =>
      cases hstep
      exact portOk_congr (by rw [usTick_frame]) (by rw [usTick_frame]) hadv
    case pinChange p v =>
      cases hstep
      exact portOk_congr (by rw [pinChange_frame]) (by rw [pinChange_frame]) hadv
    case dispatch => exact absurd hn hd
    case host words =>
      cases hb : s.advance.rd.busy with
      | false => exact host_portOk_idle hb hadv hstep
      | true => exact host_portOk_busy hb hadv hstep
    case reset =>
      cases hstep
      exact ⟨rfl, nofun⟩

/-- Settles O53: the queue by `queueInv_stepKept`, the command port agent by agent. -/
theorem stepKeepsQueue : Obligations.StepKeepsQueue := by
  intro s t h
  refine ⟨fun ⟨hcfg, _⟩ hq hp => ?_, step_portOk h⟩
  have ht : QueueInv t := by
    rcases queueInv_stepKept.step ⟨hcfg, hq, hp⟩ h with ht | ⟨_, _, rfl⟩
    · exact ht
    · exact resetStep_queueInv (by rw [advance_frame]; exact hcfg)
  exact ⟨ht.queue, ht.prompt⟩

end Sys2Proof.Machine
end

section
/-! SUPPORT. The parts of the engine invariants (10_state.md R57, R58): timers, bindings, pending triggers and channels, and
what each operation on them keeps. -/

namespace Sys2Proof.Machine

/-! ## Sizes -/

theorem shaped_stepKept : StepKept State.Shaped where
  bookkeeping h hs := by
    rw [h]
    exact hs
  command h hs := h.effect.shape.shaped hs
  popped _ hs := hs
  traces h hs := by
    rw [h]
    exact hs
  taken _ hs := hs
  fireCounted {s} hs := by
    have hshape : SameShape s { s with ch := s.ch.map Channel.countFire } :=
      ⟨rfl, rfl, rfl, rfl, rfl, rfl, List.length_map _⟩
    exact hshape.shaped hs
  served {s c _ r} _ _ _ hs := ((setRing_sameShape r s).trans (setChannel_sameShape c _ _)).shaped hs
  stopped {s} hs := (stopProcedure_effect s).shape.shaped hs
  readEnded hs := hs
  ticked {s} _ hs := (usTick_sameShape s).shaped hs
  pinChanged {s} p v _ hs := (pinChange_sameShape p v s).shaped hs

/-! ## The invariants by their parts -/

/-- A timer of this target fires for a handler that is there: the engine's only while it is armed in POLLING mode, on
STREAM_TIMER (R37, R57 I2). -/
def State.FireHandled (s : State) (i : Nat) (x : TimerTarget) : Prop :=
  x ≠ .none ∧ (x = .stream → s.eng.armed = true ∧ s.eng.amode = .polling ∧ i = s.cfg.streamTimer)

/-- The engine invariants, the pending triggers split by their source. -/
structure EngineInv (s : State) : Prop where
  buses : s.BusesOk
  active : ∀ d ∈ s.ch, s.ActiveOk d
  timers : ∀ i, (s.timer i).Ok
  streams : ∀ i < s.cfg.nTimers, s.StreamTimerOk i
  bindings : ∀ p < s.cfg.nPins, s.BindingOk p
  fires : ∀ e ∈ s.trigq, ∀ i, e.src = .timer i → i < s.cfg.nTimers ∧ s.FireHandled i (s.timer i).target
  edges : ∀ e ∈ s.trigq, ∀ p, e.src = .pin p → p < s.cfg.nPins ∧ (s.binding p).valid = true

theorem triggerOk_iff (s : State) (e : Trigger) :
    s.triggerOk e = true ↔
      (∀ i, e.src = .timer i → i < s.cfg.nTimers ∧ s.FireHandled i (s.timer i).target) ∧
      (∀ p, e.src = .pin p → p < s.cfg.nPins ∧ (s.binding p).valid = true) := by
  unfold State.triggerOk State.FireHandled
  split <;> simp only [decide_eq_true_eq, *] <;> simp

theorem timers_ok_iff (s : State) : (∀ t ∈ s.tmr, t.Ok) ↔ ∀ i, (s.timer i).Ok := by
  have hreset : Timer.reset.Ok := by decide
  unfold State.timer
  refine ⟨fun h i => ?_, fun h t ht => ?_⟩
  · by_cases hi : i < s.tmr.length
    · simpa [hi] using h _ (List.getElem_mem hi)
    · simpa [hi] using hreset
  · obtain ⟨i, hi, rfl⟩ := List.mem_iff_getElem.mp ht
    simpa [hi] using h i

theorem engineInv_iff (s : State) : EngineInv s ↔ s.EngineOk := by
  constructor
  · intro h
    exact ⟨h.buses, h.active, (timers_ok_iff s).mpr h.timers, h.streams, h.bindings,
      fun e he => (triggerOk_iff s e).mpr ⟨h.fires e he, h.edges e he⟩⟩
  · rintro ⟨hbuses, hactive, htmr, hstream, hbind, htrig⟩
    exact ⟨hbuses, hactive, (timers_ok_iff s).mp htmr, hstream, hbind,
      fun e he => ((triggerOk_iff s e).mp (htrig e he)).1, fun e he => ((triggerOk_iff s e).mp (htrig e he)).2⟩

namespace EngineInv

variable {s : State}

/-! ## Timers -/

/-- A timer that is not STOPPED has a handler, and is not READY when it is the engine's (R37, R38). -/
theorem live (h : EngineInv s) {i : Nat} (hi : i < s.cfg.nTimers) (hlive : (s.timer i).state ≠ .stopped) :
    s.FireHandled i (s.timer i).target ∧ ((s.timer i).target = .stream → (s.timer i).state ≠ .ready) := by
  refine ⟨⟨fun hnone => hlive ((h.timers i).1 hnone), fun ht => ?_⟩, fun ht => (h.streams i hi ht).1⟩
  obtain ⟨hready, hrun⟩ := h.streams i hi ht
  apply hrun
  cases hst : (s.timer i).state
  · exact absurd hst hlive
  · exact absurd hst hready
  · rfl

/-- Writing a timer that has a handler keeps the invariants. -/
theorem setTimer (h : EngineInv s) {i : Nat} {x : Timer} (hlt : i < s.tmr.length) (hx : x.Ok)
    (hhandled : s.FireHandled i x.target) (hready : x.target = .stream → x.state ≠ .ready) :
    EngineInv (s.setTimer i x) := by
  have hsame := State.timer_setTimer_same s i x hlt
  have hother := fun j hij => State.timer_setTimer_ne s i j x hij
  refine { h with
    timers := fun j => ?_, streams := fun j hj => ?_, fires := fun e he j hj => ⟨(h.fires e he j hj).1, ?_⟩ }
  all_goals by_cases hij : j = i
  · rwa [hij, hsame]
  · rw [hother j hij]
    exact h.timers j
  · unfold State.StreamTimerOk
    rw [hij, hsame]
    exact fun ht => ⟨hready ht, fun _ => hhandled.2 ht⟩
  · unfold State.StreamTimerOk
    rw [hother j hij]
    exact h.streams j hj
  · rw [hij, hsame]
    exact hhandled
  · rw [hother j hij]
    exact (h.fires e he j hj).2

/-- Dropping pending triggers keeps the invariants (R288). -/
theorem drop (h : EngineInv s) {q : List Trigger} (hq : ∀ e ∈ q, e ∈ s.trigq) : EngineInv { s with trigq := q } :=
  { h with fires := fun e he => h.fires e (hq e he), edges := fun e he => h.edges e (hq e he) }

theorem purge (h : EngineInv s) (src : TrigSource) : EngineInv (s.purge src) :=
  h.drop fun _ he => List.mem_of_mem_filter he

/-- Free values used up change nothing (log 5). -/
theorem drawFree (h : EngineInv s) : EngineInv s.drawFree := { h with }

end EngineInv

theorem halt_ok (k i : Nat) (t : Timer) : (t.halt k i).Ok := ⟨fun _ => rfl, fun h => absurd h (by simp)⟩

/-- Stopping a timer keeps the invariants (R182). -/
theorem EngineInv.stopTimer {s : State} (h : EngineInv s) (hs : s.Shaped) {i : Nat} (hi : i < s.cfg.nTimers) :
    EngineInv (s.stopTimer i) := by
  obtain ⟨_, _, _, hlen, _⟩ := hs
  rcases stopTimer_cases i s with ⟨_, hst⟩ | ⟨hlive, hst⟩ <;> rw [hst]
  · exact h
  · exact (h.setTimer (hlen ▸ hi) (halt_ok _ _ _) (h.live hi hlive).1 fun _ => by simp).drawFree

theorem stopTimer_stopped {i : Nat} {s : State} (hlt : i < s.tmr.length) :
    ((s.stopTimer i).timer i).state = .stopped := by
  rcases stopTimer_cases i s with ⟨hstate, hst⟩ | ⟨_, hst⟩ <;> rw [hst]
  · exact hstate
  · rw [State.timer_drawFree, State.timer_setTimer_same s i _ hlt, Timer.halt_state]

theorem tick_target (k i : Nat) (t : Timer) : (t.tick k i).target = t.target := by
  unfold Timer.tick
  split_ifs <;> rfl

theorem tick_state (k i : Nat) (t : Timer) : (t.tick k i).state = t.state ∨ (t.tick k i).state = .stopped := by
  unfold Timer.tick
  split_ifs
  · exact .inr rfl
  · exact .inl rfl
  · exact .inl rfl
  · exact .inl rfl

/-- A count below the timeout that does not reach it stays below it (R38, R285). -/
theorem cnt_succ_lt {w : Nat} {cnt timeout : BitVec w} (hlt : cnt.toNat < timeout.toNat)
    (hne : ¬ cnt + 1 = timeout) : (cnt + 1).toNat < timeout.toNat := by
  have htop := timeout.isLt
  have hone : 1 % 2 ^ w = 1 := Nat.mod_eq_of_lt (by omega)
  have hsucc : (cnt + 1).toNat = cnt.toNat + 1 := by
    simp only [BitVec.toNat_add, BitVec.ofNat_eq_ofNat, BitVec.toNat_ofNat, hone]
    exact Nat.mod_eq_of_lt (by omega)
  have hne' : (cnt + 1).toNat ≠ timeout.toNat := fun heq => hne (BitVec.eq_of_toNat_eq heq)
  omega

theorem tick_ok {t : Timer} (h : t.Ok) (k i : Nat) : (t.tick k i).Ok := by
  unfold Timer.tick
  split_ifs with hrun hfire _
  · exact halt_ok k i t
  · exact ⟨h.1, fun hr => Nat.lt_of_le_of_lt (Nat.zero_le _) (h.2 hr)⟩
  · exact ⟨h.1, fun hr => cnt_succ_lt (h.2 hr) hfire⟩
  · exact h

theorem usTick_timer (s : State) (i : Nat) : (usTick s).timer i = (s.timer i).tick s.free i := by
  rw [usTick_frame]
  unfold State.timer
  by_cases hi : i < s.tmr.length
  · simp [hi]
  · simp [hi, Timer.tick, Timer.reset]

/-- Latching several timers adds triggers of those timers alone (R285, R287). -/
theorem mem_latchAll {is : List Nat} {s : State} {e : Trigger}
    (h : e ∈ (is.foldl (fun s' i => s'.latch (.timer i) false) s).trigq) :
    e ∈ s.trigq ∨ ∃ i ∈ is, e.src = .timer i := by
  induction is generalizing s with
  | nil => exact .inl h
  | cons i is ih =>
    rw [List.foldl_cons] at h
    rcases ih h with hmem | ⟨j, hj, hsrc⟩
    · rcases latch_cases (.timer i) false s with ⟨_, hl⟩ | ⟨_, hl⟩ <;> rw [hl] at hmem
      · rcases List.mem_append.mp hmem with hmem | hmem
        · exact .inl hmem
        · rw [List.mem_singleton] at hmem
          exact .inr ⟨i, List.mem_cons_self, by rw [hmem]⟩
      · exact .inl hmem
    · exact .inr ⟨j, List.mem_cons_of_mem i hj, hsrc⟩

/-- A timer that fires is RUNNING (R285). -/
theorem mem_firing {s : State} {i : Nat} (h : i ∈ s.firing) :
    i < s.cfg.nTimers ∧ (s.timer i).state = .running := by
  simp only [State.firing, List.mem_filter, List.mem_range, Timer.fires, decide_eq_true_eq] at h
  exact ⟨h.1, h.2.1⟩

theorem usTick_trigq {s : State} {e : Trigger} (h : e ∈ (usTick s).trigq) :
    e ∈ s.trigq ∨ ∃ i ∈ s.firing, e.src = .timer i := by
  unfold usTick at h
  have hlatched := mem_latchAll h
  exact hlatched

/-- Time keeps the invariants: a timer that fires has a handler (R285). -/
theorem EngineInv.usTick {s : State} (h : EngineInv s) : EngineInv (usTick s) := by
  have htimer := usTick_timer s
  have htrig := fun e => usTick_trigq (s := s) (e := e)
  rw [usTick_frame] at *
  refine { h with
    timers := fun i => ?timers, streams := fun i hi => ?streams, fires := fun e he i hsrc => ?fires,
    edges := fun e he p hsrc => ?edges }
  case timers =>
    rw [htimer]
    exact tick_ok (h.timers i) _ i
  case streams =>
    unfold State.StreamTimerOk
    rw [htimer, tick_target]
    intro ht
    obtain ⟨hready, hrun⟩ := h.streams i hi ht
    rcases tick_state s.free i (s.timer i) with hst | hst <;> rw [hst]
    · exact ⟨hready, hrun⟩
    · exact ⟨nofun, nofun⟩
  case fires =>
    rw [htimer, tick_target]
    rcases htrig e he with hmem | ⟨j, hj, hjsrc⟩
    · exact h.fires e hmem i hsrc
    · obtain rfl : j = i := TrigSource.timer.inj (hjsrc.symm.trans hsrc)
      obtain ⟨hlt, hrun⟩ := mem_firing hj
      exact ⟨hlt, (h.live hlt (by simp [hrun])).1⟩
  case edges =>
    rcases htrig e he with hmem | ⟨j, _, hjsrc⟩
    · exact h.edges e hmem p hsrc
    · exact absurd (hjsrc.symm.trans hsrc) nofun

/-! ## Pin bindings -/

namespace EngineInv

variable {s : State}

/-- Binding a pin to a handler of the host keeps the invariants (R200). -/
theorem attach (h : EngineInv s) {p : Nat} {x : Binding} (hlt : p < s.bind.length) (hvalid : x.valid = true)
    (hknown : x.policy ≠ .reserved) (hext : x.target ≠ .stream) : EngineInv (s.setBinding p x) := by
  have hsame := State.binding_setBinding_same s p x hlt
  have hother := fun q hq => State.binding_setBinding_ne s p q x hq
  refine { h with bindings := fun q hq => ?_, edges := fun e he q hq => ⟨(h.edges e he q hq).1, ?_⟩ }
  all_goals by_cases hqp : q = p
  · unfold State.BindingOk
    rw [hqp, hsame]
    exact fun _ => ⟨hknown, fun ht => absurd ht hext⟩
  · unfold State.BindingOk
    rw [hother q hqp]
    exact h.bindings q hq
  · rw [hqp, hsame]
    exact hvalid
  · rw [hother q hqp]
    exact (h.edges e he q hq).2

/-- Removing bindings with their pending triggers keeps the invariants (R201, R288). -/
theorem unbind (h : EngineInv s) {bs : List Binding} {q : List Trigger}
    (hb : ∀ p, bs.getD p Binding.reset = s.binding p ∨ (bs.getD p Binding.reset).valid = false)
    (hq : ∀ e ∈ q, e ∈ s.trigq ∧ ∀ p, e.src = .pin p → bs.getD p Binding.reset = s.binding p) :
    EngineInv { s with bind := bs, trigq := q } := by
  refine { h with
    bindings := fun p hp => ?bindings, fires := fun e he => h.fires e (hq e he).1, edges := fun e he p hsrc => ?edges }
  case bindings =>
    unfold State.BindingOk State.binding
    rcases hb p with hp' | hp' <;> rw [hp']
    · exact h.bindings p hp
    · exact nofun
  case edges =>
    obtain ⟨hmem, hkeep⟩ := hq e he
    obtain ⟨hlt, hvalid⟩ := h.edges e hmem p hsrc
    exact ⟨hlt, (congrArg Binding.valid (hkeep p hsrc)).trans hvalid⟩

/-- Detaching a pin and dropping its triggers keeps the invariants (R201). -/
theorem detach (h : EngineInv s) (p : Nat) : EngineInv ((s.unbind p).purge (.pin p)) := by
  rcases unbind_cases p s with ⟨_, hu⟩ | ⟨_, hu⟩ <;> rw [hu]
  · exact h.purge _
  · have hother := fun q hq => State.binding_setBinding_ne s p q (Binding.clear s.free p) hq
    refine (h.unbind (bs := s.bind.set p (Binding.clear s.free p)) (q := purgeSources [.pin p] s.trigq)
      (fun q => ?_) fun e he => ?_).drawFree
    · by_cases hq : q = p
      · right
        by_cases hlt : p < s.bind.length <;> simp [hq, hlt, Binding.reset]
      · exact .inl (hother q hq)
    · obtain ⟨hmem, hsrc⟩ := (mem_purgeSources _ _ _).mp he
      exact ⟨hmem, fun q hq => hother q fun hqp => hsrc (by simp [hq, hqp])⟩

end EngineInv

end Sys2Proof.Machine
end

section
/-! SUPPORT. The engine invariants along the streaming commands (43_streaming_commands.md) and the tick sequence: the
channels, the arming of the engine and the stop procedure. -/

namespace Sys2Proof.Machine

/-! ## Channels -/

theorem mode_polling_iff (d : Channel) : d.mode = .polling ↔ d.intEn = false := by
  unfold Channel.mode
  cases d.intEn <;> simp

theorem mode_interrupt_iff (d : Channel) : d.mode = .interrupt ↔ d.intEn = true := by
  unfold Channel.mode
  cases d.intEn <;> simp

/-- The channels that match a mode have the descriptors of those that matched it (R44). -/
theorem SameDescriptors.matching {s t : State} (h : SameDescriptors s t) (m : EngineMode) :
    (t.matching m).map Channel.descriptor = (s.matching m).map Channel.descriptor := by
  have hfilter : ∀ u : State, (u.matching m).map Channel.descriptor =
      (u.ch.map Channel.descriptor).filter (Channel.matchesMode m) := fun u => by
    rw [List.filter_map]
    rfl
  rw [hfilter, hfilter, h]

/-- So their pins are the same (R212). -/
theorem SameDescriptors.pinsOf {s t : State} (h : SameDescriptors s t) (m : EngineMode) :
    pinsOf (t.matching m) = pinsOf (s.matching m) := by
  have hmap : ∀ l : List Channel, Machine.pinsOf l = (l.map Channel.descriptor).map fun d => d.intPin.toNat :=
    fun l => by
      rw [List.map_map]
      rfl
  rw [hmap, hmap, h.matching]

theorem matchesMode_congr {d d0 : Channel} (h : d0.descriptor = d.descriptor) (m : EngineMode) :
    d0.matchesMode m = d.matchesMode m := by
  have hm := congrArg (Channel.matchesMode m) h
  exact hm

theorem bus_congr {d d0 : Channel} (h : d0.descriptor = d.descriptor) : d0.bus = d.bus := by
  have hbus := congrArg Channel.bus h
  exact hbus

theorem EngineInv.channels {s : State} (h : EngineInv s) {l : List Channel}
    (hl : SameDescriptors s { s with ch := l }) (ha : ∀ d ∈ l, s.ActiveOk d) : EngineInv { s with ch := l } := by
  refine { h with buses := fun harmed d hd hm => ?buses, active := ha, bindings := fun p hp hv => ?bindings }
  case buses =>
    obtain ⟨d0, hd0, heq⟩ := hl.mem hd
    have hbus := h.buses harmed d0 hd0 ((matchesMode_congr heq _).trans hm)
    rwa [bus_congr heq] at hbus
  case bindings =>
    obtain ⟨hknown, hstream⟩ := h.bindings p hp hv
    refine ⟨hknown, fun ht => ?_⟩
    rw [hl.pinsOf]
    exact hstream ht

/-- A divider that counts a fire stays below its divisor (R42, R251). -/
theorem countFire_activeOk {s : State} {d : Channel} (h : s.ActiveOk d) : s.ActiveOk d.countFire := by
  unfold Channel.countFire
  split
  · intro ha
    obtain ⟨harmed, hm, hcap, hdiv⟩ := h ha
    refine ⟨harmed, hm, hcap, fun hint => ?_⟩
    have hlt := hdiv hint
    by_cases hdue : d.divcnt + 1 = d.div
    · simp only [if_pos hdue]
      exact Nat.lt_of_le_of_lt (Nat.zero_le _) hlt
    · simp only [if_neg hdue]
      exact cnt_succ_lt hlt hdue
  · exact h

/-- A channel that is counted stays below the cap, or becomes inactive at it (R256). -/
theorem counted_activeOk {s : State} {d : Channel} (h : s.ActiveOk d) : s.ActiveOk (d.counted s.eng.cap) := by
  unfold Channel.counted
  split
  · exact nofun
  · next hc =>
    intro ha
    obtain ⟨harmed, hm, hcap, hdiv⟩ := h ha
    have hbelow : s.eng.cap ≠ 0 → (d.produced + 1).toNat < s.eng.cap.toNat := fun hne =>
      cnt_succ_lt (hcap hne) fun heq => hc ⟨hne, heq⟩
    exact ⟨harmed, hm, hbelow, hdiv⟩

theorem EngineInv.channel_activeOk {s : State} (h : EngineInv s) (c : Nat) : s.ActiveOk (s.channel c) := by
  have hreset : s.ActiveOk Channel.reset := nofun
  unfold State.channel
  by_cases hc : c < s.ch.length
  · simpa [hc] using h.active _ (List.getElem_mem hc)
  · simpa [hc] using hreset

theorem EngineInv.fireCounted {s : State} (h : EngineInv s) :
    EngineInv { s with ch := s.ch.map Channel.countFire } := by
  refine h.channels (sameDescriptors_of_map rfl countFire_descriptor) fun d hd => ?_
  obtain ⟨d0, hd0, rfl⟩ := List.mem_map.mp hd
  exact countFire_activeOk (h.active d0 hd0)

theorem EngineInv.count {s : State} (h : EngineInv s) (c : Nat) : EngineInv (s.count c) := by
  refine h.channels (count_sameDescriptors c s) fun d hd => ?_
  rcases List.mem_or_eq_of_mem_set hd with hmem | rfl
  · exact h.active d hmem
  · exact counted_activeOk (h.channel_activeOk c)

/-! ## An engine that holds no trigger -/

/-- The engine holds no timer that runs, no pin and no pending fire (R57 I2). -/
structure Detached (s : State) : Prop where
  timers : ∀ i < s.cfg.nTimers, (s.timer i).target = .stream → (s.timer i).state = .stopped
  bindings : ∀ p < s.cfg.nPins, (s.binding p).valid = true → (s.binding p).target ≠ .stream
  fires : ∀ e ∈ s.trigq, ∀ i, e.src = .timer i → (s.timer i).target ≠ .stream

/-- An engine that is not armed holds none. -/
theorem EngineInv.detached {s : State} (h : EngineInv s) (idle : s.eng.armed = false) : Detached s where
  timers i hi ht := by
    by_contra hlive
    exact absurd (idle.symm.trans ((h.live hi hlive).1.2 ht).1) nofun
  bindings p hp hv ht := absurd (idle.symm.trans ((h.bindings p hp hv).2 ht).1) nofun
  fires e he i hsrc ht := absurd (idle.symm.trans ((h.fires e he i hsrc).2.2 ht).1) nofun

/-- An engine that holds none can be armed or disarmed, if its channels and their buses are right afterwards. -/
theorem EngineInv.rearm {s : State} (h : EngineInv s) (hd : Detached s) {l : List Channel} {e : Engine}
    (buses : State.BusesOk { s with ch := l, eng := e })
    (active : ∀ d ∈ l, State.ActiveOk { s with ch := l, eng := e } d) : EngineInv { s with ch := l, eng := e } where
  buses := buses
  active := active
  timers := h.timers
  streams i hi ht := by
    have hst : (State.timer { s with ch := l, eng := e } i).state = .stopped := hd.timers i hi ht
    rw [hst]
    exact ⟨nofun, nofun⟩
  bindings p hp hv := ⟨(h.bindings p hp hv).1, fun ht => absurd ht (hd.bindings p hp hv)⟩
  fires e he i hsrc :=
    have hfire := h.fires e he i hsrc
    ⟨hfire.1, hfire.2.1, fun ht => absurd ht (hd.fires e he i hsrc)⟩
  edges := h.edges

theorem EngineInv.disarm {s : State} (h : EngineInv s) (hd : Detached s) {l : List Channel} {e : Engine}
    (inactive : ∀ d ∈ l, d.active = false) (idle : e.armed = false) : EngineInv { s with ch := l, eng := e } :=
  h.rearm hd (fun harmed => absurd (idle.symm.trans harmed) nofun)
    fun d hmem ha => absurd ((inactive d hmem).symm.trans ha) nofun

theorem EngineInv.inactive {s : State} (h : EngineInv s) (idle : s.eng.armed = false) :
    ∀ d ∈ s.ch, d.active = false := by
  intro d hd
  by_contra ha
  have harmed := (h.active d hd (by simpa using ha)).1
  exact absurd (idle.symm.trans harmed) nofun

/-- Storing a descriptor keeps the invariants of an engine that is not armed (R210). -/
theorem EngineInv.store {s : State} (h : EngineInv s) (idle : s.eng.armed = false) {c : Nat} {d : Channel}
    (hd : d.active = false) : EngineInv (s.setChannel c d) := by
  refine h.disarm (h.detached idle) (fun x hx => ?_) idle
  rcases List.mem_or_eq_of_mem_set hx with hmem | rfl
  · exact h.inactive idle x hmem
  · exact hd

/-! ## The stop procedure -/

/-- With STREAM_TIMER stopped and its triggers dropped, an engine in POLLING mode holds no trigger (R216). -/
theorem EngineInv.detached_polling {s : State} (h : EngineInv s) (hmode : s.eng.amode = .polling)
    (hstopped : (s.timer s.cfg.streamTimer).state = .stopped) : Detached (s.purge (.timer s.cfg.streamTimer)) where
  timers i hi ht := by
    by_contra hlive
    obtain ⟨_, _, rfl⟩ := (h.live hi hlive).1.2 ht
    exact hlive hstopped
  bindings p hp hv ht := by
    obtain ⟨_, hint, _⟩ := (h.bindings p hp hv).2 ht
    exact absurd (hmode.symm.trans hint) nofun
  fires e he i hsrc ht := by
    obtain ⟨hmem, hother⟩ := (mem_purgeSources _ _ _).mp he
    obtain ⟨_, _, rfl⟩ := (h.fires e hmem i hsrc).2.2 ht
    exact hother (List.mem_singleton.mpr hsrc)

theorem disarmTrigger_polling {s : State} (h : EngineInv s) (hs : s.Shaped) (hmode : s.eng.amode = .polling) :
    EngineInv s.disarmTrigger ∧ Detached s.disarmTrigger := by
  have hlt : s.cfg.streamTimer < s.cfg.nTimers := by
    obtain ⟨⟨_, _, _, hstream, _⟩, _⟩ := hs
    exact hstream
  have hlen : s.tmr.length = s.cfg.nTimers := by
    obtain ⟨_, _, _, hlen, _⟩ := hs
    exact hlen
  have hu : s.disarmTrigger = (s.stopTimer s.cfg.streamTimer).purge (.timer s.cfg.streamTimer) := by
    simp [State.disarmTrigger, hmode]
  have hcfg := (stopTimer_effect s.cfg.streamTimer s).shape.cfg
  have heng : (s.stopTimer s.cfg.streamTimer).eng = s.eng := by
    rcases stopTimer_cases s.cfg.streamTimer s with ⟨_, hst⟩ | ⟨_, hst⟩ <;> rw [hst]
    rfl
  have hinv := h.stopTimer hs hlt
  have hstopped := stopTimer_stopped (hlen.symm ▸ hlt)
  have hdet := hinv.detached_polling (by rw [heng, hmode]) (by rw [hcfg, hstopped])
  rw [hcfg] at hdet
  rw [hu]
  exact ⟨hinv.purge _, hdet⟩

/-- The bindings after the stop of an engine in INTERRUPT mode (R216). -/
theorem disarmTrigger_binding {s : State} (hmode : s.eng.amode = .interrupt) (p : Nat) :
    s.disarmTrigger.binding p =
      if (pinsOf (s.matching .interrupt)).contains p = true ∧ (s.binding p).valid = true then Binding.clear s.free p
      else s.binding p := by
  simp only [State.disarmTrigger, hmode, State.binding]
  by_cases hp : p < s.bind.length
  · simp [hp]
  · simp [hp, Binding.reset]

theorem disarmTrigger_interrupt {s : State} (h : EngineInv s) (hmode : s.eng.amode = .interrupt) :
    EngineInv s.disarmTrigger ∧ Detached s.disarmTrigger := by
  have hbind := disarmTrigger_binding hmode
  have htrigq : s.disarmTrigger.trigq =
      purgeSources ((pinsOf (s.matching .interrupt)).map .pin) s.trigq := by simp [State.disarmTrigger, hmode]
  have hframe : s.disarmTrigger =
      State.drawFree { s with bind := s.disarmTrigger.bind, trigq := s.disarmTrigger.trigq } := by
    simp [State.disarmTrigger, hmode, State.drawFree]
  have hkept : ∀ e ∈ s.disarmTrigger.trigq, e ∈ s.trigq ∧
      ∀ p, e.src = .pin p → s.disarmTrigger.binding p = s.binding p := by
    intro e he
    rw [htrigq, mem_purgeSources] at he
    refine ⟨he.1, fun p hsrc => ?_⟩
    rw [hbind, if_neg]
    rintro ⟨hp, _⟩
    exact he.2 (hsrc ▸ List.mem_map_of_mem (by simpa using hp))
  have hinv : EngineInv s.disarmTrigger := by
    rw [hframe]
    refine (h.unbind (fun p => ?_) hkept).drawFree
    have hp := hbind p
    split_ifs at hp with hc
    · exact .inr (congrArg Binding.valid hp)
    · exact .inl hp
  have heng : s.disarmTrigger.eng = s.eng := by rw [disarmTrigger_frame]
  have hmode' : s.disarmTrigger.eng.amode ≠ .polling := by
    rw [heng, hmode]
    nofun
  refine ⟨hinv, ⟨fun i hi ht => ?timers, fun p hp hv ht => ?bindings, fun e he i hsrc ht => ?fires⟩⟩
  case timers =>
    by_contra hlive
    exact hmode' ((hinv.live hi hlive).1.2 ht).2.1
  case bindings =>
    have hcfg : s.disarmTrigger.cfg = s.cfg := by rw [disarmTrigger_frame]
    have hbp := hbind p
    split_ifs at hbp with hc
    · rw [hbp] at hv
      exact absurd hv nofun
    · rw [hbp] at hv ht
      exact hc ⟨((h.bindings p (hcfg ▸ hp) hv).2 ht).2.2, hv⟩
  case fires => exact hmode' ((hinv.fires e he i hsrc).2.2 ht).2.1

/-- The stop procedure keeps the invariants (R216). -/
theorem EngineInv.stopProcedure {s : State} (h : EngineInv s) (hs : s.Shaped) : EngineInv (stopProcedure s) := by
  have hdisarmed : EngineInv s.disarmTrigger ∧ Detached s.disarmTrigger := by
    cases hmode : s.eng.amode with
    | polling => exact disarmTrigger_polling h hs hmode
    | interrupt => exact disarmTrigger_interrupt h hmode
  obtain ⟨hinv, hdet⟩ := hdisarmed
  refine hinv.disarm hdet (fun d hd => ?_) rfl
  obtain ⟨_, _, rfl⟩ := List.mem_map.mp hd
  rfl

/-! ## The start of the engine -/

theorem foldl_gcd_dvd (m : List Channel) (g : Nat) :
    m.foldl (fun g d => Nat.gcd g d.periodUs) g ∣ g ∧
    ∀ d ∈ m, m.foldl (fun g d => Nat.gcd g d.periodUs) g ∣ d.periodUs := by
  induction m generalizing g with
  | nil => exact ⟨Nat.dvd_refl g, by simp⟩
  | cons d m ih =>
    obtain ⟨hg, hm⟩ := ih (Nat.gcd g d.periodUs)
    refine ⟨hg.trans (Nat.gcd_dvd_left _ _), fun x hx => ?_⟩
    rcases List.mem_cons.mp hx with rfl | hx
    · exact hg.trans (Nat.gcd_dvd_right _ _)
    · exact hm x hx

/-- The base period divides every period (R212, R213). -/
theorem basePeriod_dvd {m : List Channel} {d : Channel} (hd : d ∈ m) : basePeriod m ∣ d.periodUs :=
  (foldl_gcd_dvd m 0).2 d hd

theorem periodUs_pos {d : Channel} (h : d.period ≠ 0) : 0 < d.periodUs := by
  have hpos : 0 < d.period.toNat := Nat.pos_of_ne_zero fun h0 => h (BitVec.eq_of_toNat_eq h0)
  unfold Channel.periodUs
  split <;> omega

/-- A value of 32 bits is not 0 when the number is positive and fits (R15(c)). -/
theorem ofNat_toNat_pos {n : Nat} (hpos : 0 < n) (hlt : n < 2 ^ 32) : 0 < (BitVec.ofNat 32 n).toNat := by
  rw [BitVec.toNat_ofNat, Nat.mod_eq_of_lt hlt]
  exact hpos

/-- The period of a stored polling channel is positive (R45). -/
theorem matching_polling_period {s : State} (hd : s.DescriptorsOk) {d : Channel} (h : d ∈ s.matching .polling) :
    0 < d.periodUs := by
  obtain ⟨hmem, hv, hmode⟩ := (mem_matching s .polling d).mp h
  obtain ⟨_, _, _, _, _, hperiod, _⟩ := hd d hmem hv
  exact periodUs_pos (hperiod ((mode_polling_iff d).mp hmode))

theorem basePeriod_fits {s : State} (hd : s.DescriptorsOk) {d : Channel} (h : d ∈ s.matching .polling) :
    0 < basePeriod (s.matching .polling) ∧ basePeriod (s.matching .polling) ≤ d.periodUs :=
  have hpos := matching_polling_period hd h
  ⟨Nat.pos_of_dvd_of_pos (basePeriod_dvd h) hpos, Nat.le_of_dvd hpos (basePeriod_dvd h)⟩

theorem basePeriod_timeout_pos {s : State} (hd : s.DescriptorsOk) (hsome : s.matching .polling ≠ []) :
    0 < (BitVec.ofNat 32 (basePeriod (s.matching .polling))).toNat := by
  obtain ⟨d, hmem⟩ := List.exists_mem_of_ne_nil _ hsome
  obtain ⟨hpos, hle⟩ := basePeriod_fits hd hmem
  exact ofNat_toNat_pos hpos (Nat.lt_of_le_of_lt hle (periodUs_lt d))

theorem divider_pos {s : State} (hd : s.DescriptorsOk) {d : Channel} (h : d ∈ s.matching .polling) :
    0 < (BitVec.ofNat 32 (d.periodUs / basePeriod (s.matching .polling))).toNat := by
  obtain ⟨hpos, hle⟩ := basePeriod_fits hd h
  exact ofNat_toNat_pos (Nat.div_pos hle hpos) (Nat.lt_of_le_of_lt (Nat.div_le_self _ _) (periodUs_lt d))

/-- The channels and the engine of a polling start: the matching channels are active, the others are not (R212). -/
theorem EngineInv.armPolling {s : State} (h : EngineInv s) (hd : s.DescriptorsOk) (cap : BitVec 16)
    (idle : s.eng.armed = false) (buses : ∀ d ∈ s.matching .polling, s.busConfigured d.bus = true) :
    EngineInv { s with
      ch := s.ch.map (Channel.startPolling (basePeriod (s.matching .polling)))
      eng := { armed := true, amode := .polling, cap := cap } } := by
  refine h.rearm (h.detached idle) (fun _ d hmem hm => ?buses) fun d hmem => ?active
  all_goals obtain ⟨d0, hd0, rfl⟩ := List.mem_map.mp hmem
  case buses =>
    have hdesc := startPolling_descriptor (basePeriod (s.matching .polling)) d0
    have hm0 : d0.matchesMode .polling = true := (matchesMode_congr hdesc _).symm.trans hm
    have hbus := buses d0 (List.mem_filter.mpr ⟨hd0, hm0⟩)
    rwa [← bus_congr hdesc] at hbus
  case active =>
    unfold Channel.startPolling
    split
    · next hm =>
      intro _
      exact ⟨rfl, hm, fun hcap => Nat.pos_of_ne_zero fun h0 => hcap (BitVec.eq_of_toNat_eq h0),
        fun _ => divider_pos hd (List.mem_filter.mpr ⟨hd0, hm⟩)⟩
    · exact fun ha => absurd ((h.inactive idle d0 hd0).symm.trans ha) nofun

/-- Arming in POLLING mode keeps the invariants (R212): then STREAM_TIMER is the engine's, and none of its triggers is
left. -/
theorem EngineInv.startPolling {s : State} (h : EngineInv s) (hs : s.Shaped) (hd : s.DescriptorsOk) (cap : BitVec 16)
    (idle : s.eng.armed = false) (hsome : s.matching .polling ≠ [])
    (buses : ∀ d ∈ s.matching .polling, s.busConfigured d.bus = true) : EngineInv (s.startPolling cap) := by
  have hlt : s.cfg.streamTimer < s.tmr.length := by
    obtain ⟨⟨_, _, _, hstream, _⟩, _, _, hlen, _⟩ := hs
    exact hlen ▸ hstream
  have htimer := (h.armPolling hd cap idle buses).setTimer (i := s.cfg.streamTimer)
    (x := { state := .running, target := .stream, timeout := BitVec.ofNat 32 (basePeriod (s.matching .polling)),
            cnt := 0, oneshot := false })
    hlt ⟨nofun, fun _ => basePeriod_timeout_pos hd hsome⟩ ⟨nofun, fun _ => ⟨rfl, rfl, rfl⟩⟩ fun _ => nofun
  exact htimer.purge (.timer s.cfg.streamTimer)

/-- The policy merged from stored interrupt channels is one of the three (R214). -/
theorem mergedPolicy_known {m : List Channel} (h : ∀ d ∈ m, d.intPol ≠ .reserved) (p : Nat) :
    mergedPolicy m p ≠ .reserved := by
  unfold mergedPolicy
  split
  · nofun
  · next d ds heq =>
    have hd : d ∈ m := List.mem_of_mem_filter (heq ▸ List.mem_cons_self)
    split
    · exact h d hd
    · nofun

/-- The channels and the engine of an interrupt start (R212). -/
theorem EngineInv.armInterrupt {s : State} (h : EngineInv s) (cap : BitVec 16) (idle : s.eng.armed = false)
    (buses : ∀ d ∈ s.matching .interrupt, s.busConfigured d.bus = true) :
    EngineInv { s with
      ch := s.ch.map Channel.startInterrupt
      eng := { armed := true, amode := .interrupt, cap := cap } } := by
  refine h.rearm (h.detached idle) (fun _ d hmem hm => ?buses) fun d hmem => ?active
  all_goals obtain ⟨d0, hd0, rfl⟩ := List.mem_map.mp hmem
  case buses =>
    have hdesc := startInterrupt_descriptor d0
    have hm0 : d0.matchesMode .interrupt = true := (matchesMode_congr hdesc _).symm.trans hm
    have hbus := buses d0 (List.mem_filter.mpr ⟨hd0, hm0⟩)
    rwa [← bus_congr hdesc] at hbus
  case active =>
    unfold Channel.startInterrupt
    split
    · next hm =>
      intro _
      have hint : d0.intEn = true := (mode_interrupt_iff d0).mp ((matchesMode_iff _ d0).mp hm).2
      exact ⟨rfl, hm, fun hcap => Nat.pos_of_ne_zero fun h0 => hcap (BitVec.eq_of_toNat_eq h0),
        fun hn => absurd (hint.symm.trans hn) nofun⟩
    · exact fun ha => absurd ((h.inactive idle d0 hd0).symm.trans ha) nofun

/-- A table of bindings in which the pins of the armed interrupt channels may be bound to the engine, and every other pin
is as before, keeps the invariants (R212). -/
theorem EngineInv.bindStream {s : State} (h : EngineInv s) {bs : List Binding} {policy : Nat → Policy}
    (harmed : s.eng.armed = true) (hmode : s.eng.amode = .interrupt) (hknown : ∀ p, policy p ≠ .reserved)
    (hbs : ∀ p < s.cfg.nPins, bs.getD p Binding.reset = s.binding p ∨
      (pinsOf (s.matching .interrupt)).contains p = true ∧
        bs.getD p Binding.reset = { valid := true, policy := policy p, target := .stream }) :
    EngineInv { s with bind := bs } := by
  refine { h with bindings := fun p hp => ?bindings, edges := fun e he p hsrc => ⟨(h.edges e he p hsrc).1, ?edges⟩ }
  case bindings =>
    unfold State.BindingOk State.binding
    rcases hbs p hp with heq | ⟨hc, heq⟩ <;> rw [heq]
    · exact h.bindings p hp
    · exact fun _ => ⟨hknown p, fun _ => ⟨harmed, hmode, hc⟩⟩
  case edges =>
    obtain ⟨hp, hv⟩ := h.edges e he p hsrc
    unfold State.binding
    rcases hbs p hp with heq | ⟨_, heq⟩ <;> rw [heq]
    exact hv

/-- The bindings after an interrupt start (R212). -/
theorem startInterrupt_binding {s : State} (cap : BitVec 16) {p : Nat} (hp : p < s.bind.length) :
    (s.startInterrupt cap).binding p = s.binding p ∨
    (pinsOf (s.matching .interrupt)).contains p = true ∧ (s.startInterrupt cap).binding p =
      { valid := true, policy := mergedPolicy (s.matching .interrupt) p, target := .stream } := by
  by_cases hc : p ∈ pinsOf (s.matching .interrupt)
  · exact .inr ⟨by simpa using hc, by simp [State.startInterrupt, State.binding, hp, hc]⟩
  · exact .inl (by simp [State.startInterrupt, State.binding, hp, hc])

/-- Arming in INTERRUPT mode keeps the invariants (R212). -/
theorem EngineInv.startInterrupt {s : State} (h : EngineInv s) (hs : s.Shaped) (hd : s.DescriptorsOk) (cap : BitVec 16)
    (idle : s.eng.armed = false) (buses : ∀ d ∈ s.matching .interrupt, s.busConfigured d.bus = true) :
    EngineInv (s.startInterrupt cap) := by
  have hlen : s.bind.length = s.cfg.nPins := by
    obtain ⟨_, _, _, _, _, hlen, _⟩ := hs
    exact hlen
  have hdesc : SameDescriptors s (s.startInterrupt cap) := sameDescriptors_of_map rfl startInterrupt_descriptor
  have hknown : ∀ d ∈ s.matching .interrupt, d.intPol ≠ .reserved := fun d hmem => by
    obtain ⟨hd0, hv, hmode⟩ := (mem_matching s .interrupt d).mp hmem
    obtain ⟨_, _, _, _, _, _, hpin⟩ := hd d hd0 hv
    exact (hpin ((mode_interrupt_iff d).mp hmode)).2
  have hpins : ∀ p, (pinsOf (s.matching .interrupt)).contains p = true →
      (pinsOf ((s.startInterrupt cap).matching .interrupt)).contains p = true := fun p hc => by
    rw [hdesc.pinsOf]
    exact hc
  have hbound := (h.armInterrupt cap idle buses).bindStream (bs := (s.startInterrupt cap).bind) rfl rfl
    (mergedPolicy_known hknown) fun p hp => by
      have hbind := startInterrupt_binding cap (hlen.symm ▸ hp : p < s.bind.length)
      exact hbind.imp_right fun ⟨hc, heq⟩ => ⟨hpins p hc, heq⟩
  exact hbound.drop fun e he => List.mem_of_mem_filter he

/-! ## All steps -/

/-- BUS_CFG writes the tables of the buses alone (R161). -/
theorem configureBus_frame (r : BusRef) (speed : Byte) (bmode : BitVec 4) (s : State) :
    s.configureBus r speed bmode =
      { s with i2c := (s.configureBus r speed bmode).i2c, spi := (s.configureBus r speed bmode).spi } := by
  unfold State.configureBus
  split <;> rfl

/-- BUS_DECFG writes the tables of the buses and uses up a free value (R163). -/
theorem deconfigureBus_frame (r : BusRef) (s : State) :
    s.deconfigureBus r =
      { s with i2c := (s.deconfigureBus r).i2c, spi := (s.deconfigureBus r).spi, free := s.free + 1 } := by
  unfold State.deconfigureBus
  split <;> rfl

/-- Every command that leaves the channels and the engine alone leaves the buses of the armed ones configured
(R57 I1). -/
theorem EngineInv.buses_command {s e : State} (h : EngineInv s) (hc : CommandAction s e) (hch : e.ch = s.ch)
    (heng : e.eng = s.eng) : e.BusesOk := by
  intro harmed d hd hm
  rw [heng] at harmed hm
  rw [hch] at hd
  have hconf := h.buses harmed d hd hm
  exact (hc.sameBus hconf (busInUse_of_mem harmed hd hm)).busConfigured.trans hconf

/-- Every command keeps the invariants (R57, R58). -/
theorem EngineInv.command {s e : State} (h : EngineInv s) (hs : s.Shaped) (hd : s.DescriptorsOk)
    (hc : CommandAction s e) : EngineInv e := by
  have hbuses := h.buses_command hc
  obtain ⟨_, _, _, htmr, _, hbind, _⟩ := id hs
  cases hc with
  | nothing => exact h
  | busConfigured r speed bmode _ =>
    rw [configureBus_frame] at hbuses ⊢
    exact { h with buses := hbuses rfl rfl }
  | spiConfigured i b _ _ => exact { h with buses := hbuses rfl rfl }
  | busReleased r _ =>
    rw [deconfigureBus_frame] at hbuses ⊢
    exact { h with buses := hbuses rfl rfl }
  | timerBound i tag lt =>
    have hset := h.setTimer (x := { s.timer i with target := .ext tag, state := .ready }) (htmr ▸ lt)
      ⟨nofun, nofun⟩ ⟨nofun, nofun⟩ nofun
    exact hset.purge _
  | timerStarted i oneshot timeout lt ready positive =>
    obtain ⟨hhandled, hready⟩ := h.live lt (by simp [ready])
    have hpos : 0 < timeout.toNat := Nat.pos_of_ne_zero fun h0 => positive (BitVec.eq_of_toNat_eq h0)
    exact h.setTimer (htmr ▸ lt) ⟨fun hn => absurd hn hhandled.1, fun _ => hpos⟩ hhandled fun _ => nofun
  | timerStopped i lt => exact (h.stopTimer hs lt).purge _
  | timerCleared i lt running =>
    obtain ⟨hhandled, hready⟩ := h.live lt (by simp [running])
    have hpos : 0 < (s.timer i).timeout.toNat := Nat.lt_of_le_of_lt (Nat.zero_le _) ((h.timers i).2 running)
    exact h.setTimer (htmr ▸ lt) ⟨fun hn => absurd hn hhandled.1, fun _ => hpos⟩ hhandled hready
  | pinAttached p policy tag lt known =>
    have hset := h.attach (x := { valid := true, policy := policy, target := .ext tag }) (hbind ▸ lt) rfl known nofun
    exact hset.purge _
  | pinDetached p _ => exact h.detach p
  | descriptorStored c d idle _ inactive _ => exact h.store idle inactive
  | pollingStarted cap idle some buses => exact h.startPolling hs hd cap idle some buses
  | interruptStarted cap idle buses => exact h.startInterrupt hs hd cap idle buses
  | engineStopped => exact h.stopProcedure hs

/-- A latched trigger with a right source keeps the invariants (R287). -/
theorem EngineInv.latchPin {s : State} (h : EngineInv s) {p : Nat} (v : Bool) (hp : p < s.cfg.nPins)
    (hv : (s.binding p).valid = true) : EngineInv (s.latch (.pin p) v) := by
  rcases latch_cases (.pin p) v s with ⟨_, hl⟩ | ⟨_, hl⟩ <;> rw [hl]
  · refine { h with fires := fun e he i hsrc => ?fires, edges := fun e he q hsrc => ?edges }
    all_goals rcases List.mem_append.mp he with hmem | hmem
    · exact h.fires e hmem i hsrc
    · rw [List.mem_singleton.mp hmem] at hsrc
      exact absurd hsrc nofun
    · exact h.edges e hmem q hsrc
    · rw [List.mem_singleton.mp hmem] at hsrc
      obtain rfl : p = q := TrigSource.pin.inj hsrc
      exact ⟨hp, hv⟩
  · exact { h with }

/-- An edge is latched when its pin is bound (R286). -/
theorem EngineInv.pinChange {s : State} (h : EngineInv s) (p : Nat) (v : Bool) : EngineInv (pinChange p v s) := by
  have hlevel : EngineInv (s.setPinLevel p v) := { h with }
  unfold Machine.pinChange
  split
  · exact h
  · next hp =>
    split
    · exact h
    · split
      · next hq => exact hlevel.latchPin v (Nat.not_le.mp hp) hq.1
      · exact hlevel

/-- The engine invariants with the sizes and the descriptors they rest on (R6, R45, R57). -/
structure EngineSound (s : State) : Prop where
  shaped : s.Shaped
  descriptors : s.DescriptorsOk
  engine : EngineInv s

theorem engineSound_stepKept : StepKept EngineSound where
  bookkeeping hb h := by
    rw [hb]
    exact ⟨h.shaped, h.descriptors, { h.engine with }⟩
  command hc h := ⟨shaped_stepKept.command hc h.shaped, descriptorsOk_stepKept.command hc h.descriptors,
    h.engine.command h.shaped h.descriptors hc⟩
  popped _ h := ⟨h.shaped, h.descriptors, { h.engine with }⟩
  traces hb h := by
    rw [hb]
    exact ⟨h.shaped, h.descriptors, { h.engine with }⟩
  taken hq h := ⟨h.shaped, h.descriptors, h.engine.drop fun _ he => hq ▸ List.mem_cons_of_mem _ he⟩
  fireCounted h := ⟨shaped_stepKept.fireCounted h.shaped, descriptorsOk_stepKept.fireCounted h.descriptors,
    h.engine.fireCounted⟩
  served {s c _ r} hc hv hp h :=
    have hring : EngineInv (s.setRing r) := { h.engine with }
    ⟨shaped_stepKept.served hc hv hp h.shaped, descriptorsOk_stepKept.served hc hv hp h.descriptors, hring.count c⟩
  stopped h := ⟨shaped_stepKept.stopped h.shaped, descriptorsOk_stepKept.stopped h.descriptors,
    h.engine.stopProcedure h.shaped⟩
  readEnded h := ⟨h.shaped, h.descriptors, { h.engine with }⟩
  ticked hw h := ⟨shaped_stepKept.ticked hw h.shaped, descriptorsOk_stepKept.ticked hw h.descriptors, h.engine.usTick⟩
  pinChanged p v hw h := ⟨shaped_stepKept.pinChanged p v hw h.shaped,
    descriptorsOk_stepKept.pinChanged p v hw h.descriptors, h.engine.pinChange p v⟩

/-- After reset the engine holds nothing (R55). -/
theorem resetStep_engineInv (s : State) : EngineInv (resetStep s) where
  buses := nofun
  active d hd := by
    rw [List.eq_of_mem_replicate hd]
    exact nofun
  timers := (timers_ok_iff _).mp fun t ht => by
    rw [List.eq_of_mem_replicate ht]
    exact ⟨fun _ => rfl, nofun⟩
  streams i hi := by
    have hreset : (resetStep s).timer i = Timer.reset := List.getD_replicate _ hi
    unfold State.StreamTimerOk
    rw [hreset]
    exact nofun
  bindings p hp := by
    have hreset : (resetStep s).binding p = Binding.reset := List.getD_replicate _ hp
    unfold State.BindingOk
    rw [hreset]
    exact nofun
  fires := nofun
  edges := nofun

/-- Settles O52, by the invariants' parts along each thing a step can do. -/
theorem stepKeepsEngine : Obligations.StepKeepsEngine := by
  intro s t hs hd he h
  rw [← engineInv_iff] at he ⊢
  rcases engineSound_stepKept.step ⟨hs, hd, he⟩ h with ht | ⟨_, _, rfl⟩
  · exact ht.engine
  · exact resetStep_engineInv _

end Sys2Proof.Machine
end

section
/-! SUPPORT. The ring as a list of records (20_memory.md R90): what it is for the bytes of the ring to lay out a list of
records, and what Reclaim, the evictions, Push and PopOne do to that list. -/

namespace Sys2Proof.Machine

/-! ## Bytes of the ring space -/

/-- The ring space holds `bs` from an offset on, modulo BUF_CAP (R84). -/
def BytesAt (cap : Nat) (m : Memory) (off : Nat) (bs : List Byte) : Prop :=
  ∀ k, (hk : k < bs.length) → m.read ((off + k) % cap) = some bs[k]

/-- Two offsets less than BUF_CAP apart are different modulo BUF_CAP (R84). -/
theorem mod_ne_of_lt {cap a b : Nat} (hab : a < b) (hb : b < a + cap) : a % cap ≠ b % cap := by
  intro h
  have hmod := Nat.sub_mod_eq_zero_of_mod_eq h.symm
  rw [Nat.mod_eq_of_lt (by omega)] at hmod
  omega

theorem bytesAt_mod {cap : Nat} {m : Memory} {off off' : Nat} {bs : List Byte} (h : off % cap = off' % cap) :
    BytesAt cap m off bs ↔ BytesAt cap m off' bs := by
  have hk : ∀ k, (off + k) % cap = (off' + k) % cap := fun k => Nat.ModEq.add_right k h
  simp only [BytesAt, hk]

theorem bytesAt_append {cap : Nat} {m : Memory} {off : Nat} {as bs : List Byte} :
    BytesAt cap m off (as ++ bs) ↔ BytesAt cap m off as ∧ BytesAt cap m (off + as.length) bs := by
  constructor
  · intro h
    refine ⟨fun k hk => ?_, fun k hk => ?_⟩
    · rw [h k (by simp; omega), List.getElem_append_left hk]
    · rw [Nat.add_assoc, h (as.length + k) (by simpa using hk), List.getElem_append_right (by omega)]
      simp
  · rintro ⟨ha, hb⟩ k hk
    by_cases hlt : k < as.length
    · rw [ha k hlt, List.getElem_append_left hlt]
    · have hle : as.length ≤ k := Nat.not_lt.mp hlt
      rw [List.getElem_append_right hle, ← hb (k - as.length) (by simp at hk; omega)]
      congr 2
      omega

theorem ringRead_bytesAt {cap : Nat} {m : Memory} {off n : Nat} {bs : List Byte} (h : ringRead cap m off n = .ok bs) :
    bs.length = n ∧ BytesAt cap m off bs := ringRead_ok h

theorem BytesAt.ringRead {cap : Nat} {m : Memory} {off : Nat} {bs : List Byte} (h : BytesAt cap m off bs)
    (hc : 0 < cap) : ringRead cap m off bs.length = .ok bs := ringRead_eq hc h

/-- A run of bytes that fits the ring space stands there after it is written (R84). -/
theorem ringWrite_bytesAt {cap : Nat} {bs : List Byte} {m : Memory} {off : Nat} (h : bs.length ≤ cap) :
    BytesAt cap (ringWrite cap m off bs) off bs := by
  induction bs generalizing m off with
  | nil => exact nofun
  | cons b bs ih =>
    simp only [List.length_cons] at h
    rw [← List.singleton_append, bytesAt_append]
    refine ⟨fun k hk => ?_, ih (by omega)⟩
    obtain rfl : k = 0 := by simpa using hk
    simp only [List.singleton_append, ringWrite]
    rw [ringWrite_read_outside]
    · simp
    · intro k hk
      exact mod_ne_of_lt (by omega) (by omega)

/-- Writing a run of bytes leaves the bytes before it alone, when both fit the ring space (R84). -/
theorem BytesAt.ringWrite {cap : Nat} {m : Memory} {off off' : Nat} {as bs : List Byte} (h : BytesAt cap m off as)
    (hoff : off' % cap = (off + as.length) % cap) (hfit : as.length + bs.length ≤ cap) :
    BytesAt cap (ringWrite cap m off' bs) off as := by
  intro k hk
  rw [ringWrite_read_outside, h k hk]
  intro j hj
  have hmod : (off' + j) % cap = (off + as.length + j) % cap := Nat.ModEq.add_right j hoff
  rw [hmod]
  exact mod_ne_of_lt (by omega) (by omega)

/-- Writing one of the bytes replaces it. -/
theorem BytesAt.write {cap : Nat} {m : Memory} {off : Nat} {bs : List Byte} (h : BytesAt cap m off bs)
    (hfit : bs.length ≤ cap) {i : Nat} (hi : i < bs.length) (v : Byte) :
    BytesAt cap (m.write ((off + i) % cap) v) off (bs.set i v) := by
  intro k hk
  simp only [List.length_set] at hk
  by_cases hki : k = i
  · subst hki
    simp
  · rw [Memory.read_write_ne, h k hk, List.getElem_set_ne (Ne.symm hki)]
    rcases Nat.lt_or_gt_of_ne hki with hlt | hlt
    · exact mod_ne_of_lt (by omega) (by omega)
    · exact (mod_ne_of_lt (by omega) (by omega)).symm

/-! ## Records -/

theorem recWellFormed_iff (p : Params) (r : List Byte) :
    recWellFormed p r = true ↔ ∃ tag flags len payload, r = tag :: flags :: len :: payload ∧
      tag.toNat < p.nChannels ∧ flags.extractLsb' 2 5 = 0 ∧ len.toNat = payload.length ∧ 1 ≤ payload.length ∧
      payload.length ≤ p.recCap ∧ (flagTs flags = true → tsBytes ≤ payload.length) := by
  unfold recWellFormed
  split
  · next tag flags len payload =>
    simp only [Bool.and_eq_true, decide_eq_true_eq, Bool.or_eq_true, Bool.not_eq_true', and_assoc]
    constructor
    · rintro ⟨h1, h2, h3, h4, h5, h6⟩
      refine ⟨tag, flags, len, payload, rfl, h1, h2, h3, h4, h5, fun ht => h6.resolve_left (by simp [ht])⟩
    · rintro ⟨_, _, _, _, heq, h1, h2, h3, h4, h5, h6⟩
      cases heq
      refine ⟨h1, h2, h3, h4, h5, ?_⟩
      cases ht : flagTs flags
      · exact .inl rfl
      · exact .inr (h6 ht)
  · next hshort =>
    refine ⟨nofun, ?_⟩
    rintro ⟨tag, flags, len, payload, rfl, _⟩
    exact absurd rfl (hshort tag flags len payload)

/-- The header of a well-formed record in the ring is read back as its TAG, its FLAGS and its length (R82). -/
theorem recordHeaderAt_bytesAt {p : Params} {cap : Nat} {m : Memory} {off : Nat} {x : List Byte} (hc : 0 < cap)
    (hx : recWellFormed p x = true) (h : BytesAt cap m off x) :
    recordHeaderAt cap m off = .ok (x.getD 0 0, x.getD 1 0, x.length) ∧
    recordFlagsAt cap m off = .ok (x.getD 1 0) ∧ recordSizeAt cap m off = .ok x.length := by
  obtain ⟨tag, flags, len, payload, rfl, _, _, hlen, _⟩ := (recWellFormed_iff p x).mp hx
  have htag : ringByte cap m (off % cap) = .ok tag := ringByte_eq (Nat.mod_lt _ hc) (h 0 (by simp))
  have hflags : recordFlagsAt cap m off = .ok flags := ringByte_eq (Nat.mod_lt _ hc) (h 1 (by simp))
  have hsize : recordSizeAt cap m off = .ok (tag :: flags :: len :: payload).length := by
    have hbyte : ringByte cap m ((off + 2) % cap) = .ok len := ringByte_eq (Nat.mod_lt _ hc) (h 2 (by simp))
    simp only [recordSizeAt, hbyte, hlen, List.length_cons]
    congr 1
    unfold hdrBytes
    omega
  refine ⟨?_, hflags, hsize⟩
  simp [recordHeaderAt, htag, hflags, hsize]

theorem recWellFormed_length_pos {p : Params} {x : List Byte} (hx : recWellFormed p x = true) : 0 < x.length := by
  obtain ⟨tag, flags, len, payload, rfl, _⟩ := (recWellFormed_iff p x).mp hx
  simp

/-- A well-formed record fits an empty ring (R6, R85). -/
theorem recWellFormed_fits {p : Params} (hp : p.Ok) {x : List Byte} (hx : recWellFormed p x = true) :
    x.length ≤ p.bufCap := by
  obtain ⟨_, _, _, _, _, _, _, _, ⟨hcap, _⟩, _⟩ := hp
  obtain ⟨tag, flags, len, payload, rfl, _, _, _, _, hle, _⟩ := (recWellFormed_iff p x).mp hx
  unfold hdrBytes at hcap
  simp only [List.length_cons]
  omega

/-- CONSUMED touches no other flag (R82, R88). -/
theorem markConsumed_flags (f : Byte) :
    (markConsumed f).extractLsb' 2 5 = f.extractLsb' 2 5 ∧ flagTs (markConsumed f) = flagTs f := by
  refine ⟨?_, by simp [flagTs, markConsumed]⟩
  ext i hi
  have hbit : (0x80#8).getLsbD (2 + i) = false := by
    have hall : ∀ j < 5, (0x80#8).getLsbD (2 + j) = false := by decide
    exact hall i hi
  simp [markConsumed, hbit]

theorem recMark_wellFormed {p : Params} {x : List Byte} (hx : recWellFormed p x = true) :
    recWellFormed p (recMark x) = true := by
  obtain ⟨tag, flags, len, payload, rfl, htag, hflags, hrest⟩ := (recWellFormed_iff p x).mp hx
  obtain ⟨hreserved, hts⟩ := markConsumed_flags flags
  refine (recWellFormed_iff p _).mpr ⟨tag, markConsumed flags, len, payload, rfl, htag, hreserved.trans hflags, ?_⟩
  rwa [hts]

/-! ## The ring and its list of records -/

/-- The ring lays out the records `q` from `head` to `tail` (R47, R90). -/
structure Represents (p : Params) (r : Ring) (q : List (List Byte)) : Prop where
  canonical : r.buf.wf
  head : r.head < p.bufCap
  fits : r.used ≤ p.bufCap
  tail : r.tail = (r.head + r.used) % p.bufCap
  used : r.used = q.flatten.length
  bytes : BytesAt p.bufCap r.buf r.head q.flatten
  records : ∀ x ∈ q, recWellFormed p x = true

/-- The oldest record is unread (R47(c)). -/
def HeadUnread (q : List (List Byte)) : Prop := ∀ x ∈ q.head?, recConsumed x = false

theorem recordsFrom_bytesAt {cap : Nat} {m : Memory} {fuel off rem : Nat} {q : List (List Byte)}
    (h : recordsFrom cap m fuel off rem = some q) : rem = q.flatten.length ∧ BytesAt cap m off q.flatten := by
  induction fuel generalizing off rem q with
  | zero =>
    simp only [recordsFrom] at h
    split at h <;> cases h
    exact ⟨by assumption, nofun⟩
  | succ fuel ih =>
    simp only [recordsFrom] at h
    split at h
    · cases h
      exact ⟨by assumption, nofun⟩
    · split at h
      · cases h
      · next size _ =>
        split at h
        · cases h
        · next hle =>
          split at h
          · cases h
          · next x hread =>
            split at h <;> cases h
            next q hrest =>
              obtain ⟨hlen, hx⟩ := ringRead_bytesAt hread
              obtain ⟨hrem, hq⟩ := ih hrest
              have hmod : (off + size) % cap % cap = (off + x.length) % cap := by rw [hlen, Nat.mod_mod]
              rw [List.flatten_cons, List.length_append, bytesAt_append, ← bytesAt_mod hmod]
              exact ⟨by omega, hx, hq⟩

theorem recordsFrom_of_bytesAt {p : Params} {cap : Nat} {m : Memory} {q : List (List Byte)} {fuel off : Nat}
    (hc : 0 < cap) (hq : ∀ x ∈ q, recWellFormed p x = true) (h : BytesAt cap m off q.flatten)
    (hfuel : q.flatten.length ≤ fuel) : recordsFrom cap m fuel off q.flatten.length = some q := by
  induction q generalizing fuel off with
  | nil => cases fuel <;> simp [recordsFrom]
  | cons x q ih =>
    have hx := hq x List.mem_cons_self
    have hpos := recWellFormed_length_pos hx
    rw [List.flatten_cons, bytesAt_append] at h
    rw [List.flatten_cons, List.length_append] at hfuel ⊢
    obtain ⟨fuel, rfl⟩ : ∃ n, fuel = n + 1 := ⟨fuel - 1, by omega⟩
    have hmod : (off + x.length) % cap % cap = (off + x.length) % cap := Nat.mod_mod _ _
    have hrest := ih (fun y hy => hq y (List.mem_cons_of_mem x hy)) ((bytesAt_mod hmod).mpr h.2)
      (fuel := fuel) (by omega)
    simp only [recordsFrom]
    rw [if_neg (by omega), (recordHeaderAt_bytesAt hc hx h.1).2.2]
    simp only [if_neg (Nat.not_lt.mpr (Nat.le_add_right _ _)), h.1.ringRead hc, Nat.add_sub_cancel_left, hrest]

/-- R90: what a ring that lays out the records `q` shows as its abstract view. -/
theorem Represents.view {p : Params} {r : Ring} {q : List (List Byte)} (h : Represents p r q) :
    r.view p.bufCap = some q := by
  unfold Ring.view
  rw [h.used]
  exact recordsFrom_of_bytesAt (Nat.lt_of_le_of_lt (Nat.zero_le _) h.head) h.records h.bytes (le_refl _)

theorem headUnread_iff (q : List (List Byte)) : (q.head?.all fun r => !recConsumed r) = true ↔ HeadUnread q := by
  unfold HeadUnread
  cases q.head? <;> simp

theorem viewOk_iff (p : Params) (q : List (List Byte)) :
    viewOk p (some q) = true ↔ (∀ x ∈ q, recWellFormed p x = true) ∧ HeadUnread q := by
  rw [← headUnread_iff]
  simp [viewOk]

/-- The ring invariants (R47) say that the ring lays out some records, the oldest unread. -/
theorem ringOk_iff (p : Params) (r : Ring) : r.Ok p ↔ ∃ q, Represents p r q ∧ HeadUnread q := by
  constructor
  · rintro ⟨hwf, hhead, hfits, htail, hview⟩
    cases hq : r.view p.bufCap with
    | none =>
      rw [hq] at hview
      cases hview
    | some q =>
      rw [hq, viewOk_iff] at hview
      obtain ⟨hused, hbytes⟩ := recordsFrom_bytesAt hq
      exact ⟨q, ⟨hwf, hhead, hfits, htail, hused, hbytes, hview.1⟩, hview.2⟩
  · rintro ⟨q, h, hunread⟩
    exact ⟨h.canonical, h.head, h.fits, h.tail, h.view ▸ (viewOk_iff p q).mpr ⟨h.records, hunread⟩⟩

theorem viewUsed_eq (q : List (List Byte)) : viewUsed q = q.flatten.length := List.length_flatten.symm

/-! ## Reclaim and the evictions -/

/-- The record at `head` leaves the ring (R86, R87). -/
theorem Represents.dropHead {p : Params} {r : Ring} {x : List Byte} {q : List (List Byte)}
    (h : Represents p r (x :: q)) : Represents p (r.dropHead p.bufCap x.length) q := by
  obtain ⟨hwf, hhead, hfits, htail, hused, hbytes, hrec⟩ := h
  rw [List.flatten_cons, List.length_append] at hused
  rw [List.flatten_cons, bytesAt_append] at hbytes
  have hpos : 0 < p.bufCap := by omega
  refine ⟨hwf, Nat.mod_lt _ hpos, by simp only [Ring.dropHead]; omega, ?_, by simp only [Ring.dropHead]; omega,
    (bytesAt_mod (Nat.mod_mod _ _)).mpr hbytes.2, fun y hy => hrec y (List.mem_cons_of_mem x hy)⟩
  simp only [Ring.dropHead, htail, Nat.mod_add_mod]
  congr 1
  omega

theorem viewReclaim_headUnread (q : List (List Byte)) : HeadUnread (viewReclaim q) := by
  induction q with
  | nil => exact nofun
  | cons x q ih =>
    unfold viewReclaim at *
    rw [List.dropWhile_cons]
    split
    · exact ih
    · next hx =>
      rintro y ⟨⟩
      simpa using hx

theorem viewReclaim_length (q : List (List Byte)) : (viewReclaim q).length ≤ q.length :=
  (List.dropWhile_sublist _).length_le

/-- `Reclaim()` drops the consumed records at the head (R87, R90). -/
theorem Represents.reclaimLoop {p : Params} {r : Ring} {q : List (List Byte)} (h : Represents p r q) {fuel : Nat}
    (hfuel : r.used ≤ fuel) :
    ∃ r', reclaimLoop p.bufCap fuel r = .ok r' ∧ Represents p r' (viewReclaim q) := by
  induction q generalizing r fuel with
  | nil =>
    have hused : r.used = 0 := h.used
    refine ⟨r, ?_, h⟩
    cases fuel <;> simp [Machine.reclaimLoop, hused]
  | cons x q ih =>
    have hx := h.records x List.mem_cons_self
    have hpos := recWellFormed_length_pos hx
    have hc : 0 < p.bufCap := Nat.lt_of_le_of_lt (Nat.zero_le _) h.head
    have hused := h.used
    have hbytes := h.bytes
    rw [List.flatten_cons, List.length_append] at hused
    rw [List.flatten_cons, bytesAt_append] at hbytes
    obtain ⟨_, hflags, hsize⟩ := recordHeaderAt_bytesAt hc hx hbytes.1
    obtain ⟨fuel, rfl⟩ : ∃ n, fuel = n + 1 := ⟨fuel - 1, by omega⟩
    simp only [Machine.reclaimLoop]
    rw [if_neg (by omega), hflags, hsize]
    cases hcons : recConsumed x with
    | false =>
      have hflag : flagConsumed (x.getD 1 0) = false := hcons
      have hview : viewReclaim (x :: q) = x :: q := by simp [viewReclaim, hcons]
      refine ⟨r, by simp only [hflag]; rfl, ?_⟩
      rwa [hview]
    | true =>
      have hflag : flagConsumed (x.getD 1 0) = true := hcons
      have hview : viewReclaim (x :: q) = viewReclaim q := by simp [viewReclaim, hcons]
      rw [hview]
      simp only [hflag, if_true]
      rw [if_neg (by omega)]
      exact ih h.dropHead (by simp only [Ring.dropHead]; omega)

theorem Represents.reclaim {p : Params} {r : Ring} {q : List (List Byte)} (h : Represents p r q) :
    ∃ r', reclaim p.bufCap r = .ok r' ∧ Represents p r' (viewReclaim q) := h.reclaimLoop (le_refl _)

/-- `EvictOldest()` drops the record at the head, and the consumed ones after it (R86, R90). -/
theorem Represents.evictOldest {p : Params} {r : Ring} {x : List Byte} {q : List (List Byte)}
    (h : Represents p r (x :: q)) :
    ∃ r', evictOldest p.bufCap r = .ok r' ∧ Represents p r' (viewReclaim q) := by
  have hx := h.records x List.mem_cons_self
  have hpos := recWellFormed_length_pos hx
  have hc : 0 < p.bufCap := Nat.lt_of_le_of_lt (Nat.zero_le _) h.head
  have hused := h.used
  have hbytes := h.bytes
  rw [List.flatten_cons, List.length_append] at hused
  rw [List.flatten_cons, bytesAt_append] at hbytes
  obtain ⟨_, _, hsize⟩ := recordHeaderAt_bytesAt hc hx hbytes.1
  obtain ⟨hwf, hhead, hfits, htail, hused', hbytes', hrec⟩ := h.dropHead
  have hovf : Represents p { r.dropHead p.bufCap x.length with ovf := true } q :=
    ⟨hwf, hhead, hfits, htail, hused', hbytes', hrec⟩
  obtain ⟨r', hr', hrep⟩ := hovf.reclaim
  refine ⟨r', ?_, hrep⟩
  unfold Machine.evictOldest
  rw [if_neg (by omega), hsize]
  simp only
  rw [if_neg (by omega)]
  exact hr'

theorem evictLoop_of_room {cap n : Nat} {r : Ring} (h : ¬ cap - r.used < n) (fuel : Nat) :
    evictLoop cap n fuel r = .ok r := by
  cases fuel <;> simp only [Machine.evictLoop, if_neg h]

theorem viewEvict_of_room {cap n : Nat} {q : List (List Byte)} (h : ¬ cap - viewUsed q < n) (fuel : Nat) (ovf : Bool) :
    viewEvict cap n fuel q ovf = (q, ovf) := by
  cases fuel <;> simp only [viewEvict, if_neg h]

/-- The evictions of a push make room by dropping records from the head (R85, R90). -/
theorem Represents.evictLoop {p : Params} {n : Nat} (hn : n ≤ p.bufCap) {r : Ring} {q : List (List Byte)}
    (h : Represents p r q) (hu : HeadUnread q) {fuel fuel' : Nat} (hfuel : q.length ≤ fuel) (hfuel' : q.length ≤ fuel') :
    ∃ r', evictLoop p.bufCap n fuel r = .ok r' ∧ Represents p r' (viewEvict p.bufCap n fuel' q r.ovf).1 ∧
      HeadUnread (viewEvict p.bufCap n fuel' q r.ovf).1 ∧ r'.ovf = (viewEvict p.bufCap n fuel' q r.ovf).2 := by
  induction fuel generalizing r q fuel' with
  | zero =>
    obtain rfl : q = [] := List.length_eq_zero_iff.mp (Nat.le_zero.mp hfuel)
    have hzero : r.used = 0 := h.used
    rw [viewEvict_of_room (by simp [viewUsed]; omega)]
    exact ⟨r, evictLoop_of_room (by omega) 0, h, hu, rfl⟩
  | succ fuel ih =>
    have hused : viewUsed q = r.used := (viewUsed_eq q).trans h.used.symm
    by_cases hroom : p.bufCap - r.used < n
    · cases q with
      | nil =>
        have hzero : r.used = 0 := h.used
        omega
      | cons x q =>
        simp only [List.length_cons] at hfuel hfuel'
        obtain ⟨fuel', rfl⟩ : ∃ k, fuel' = k + 1 := ⟨fuel' - 1, by omega⟩
        obtain ⟨r1, h1, hrep⟩ := h.evictOldest
        have hovf : r1.ovf = true := (evictOldest_ok h1).2.2.1
        have hlen := viewReclaim_length q
        have hrest := ih hrep (viewReclaim_headUnread q) (fuel' := fuel') (by omega) (by omega)
        simp only [Machine.evictLoop, viewEvict, hused, if_pos hroom, h1, List.tail_cons]
        rwa [hovf] at hrest
    · rw [viewEvict_of_room (hused ▸ hroom)]
      exact ⟨r, evictLoop_of_room hroom _, h, hu, rfl⟩

/-! ## Push -/

/-- A record that fits is laid out behind the others (R85, R90). -/
theorem Represents.append {p : Params} {r : Ring} {q : List (List Byte)} {rec : List Byte} (h : Represents p r q)
    (hrec : recWellFormed p rec = true) (hfit : r.used + rec.length ≤ p.bufCap) :
    Represents p (r.append p.bufCap rec) (q ++ [rec]) := by
  obtain ⟨hwf, hhead, hfits, htail, hused, hbytes, hq⟩ := h
  have hflat : (q ++ [rec]).flatten = q.flatten ++ rec := by simp
  have htailmod : r.tail % p.bufCap = (r.head + q.flatten.length) % p.bufCap := by rw [htail, hused, Nat.mod_mod]
  refine ⟨ringWrite_wf _ _ _ _ hwf, hhead, hfit, ?_, ?_, ?_, ?_⟩
  · simp only [Ring.append, htail, Nat.mod_add_mod, Nat.add_assoc]
  · rw [hflat, List.length_append, ← hused]
    rfl
  · rw [hflat, bytesAt_append]
    exact ⟨hbytes.ringWrite htailmod (by omega), (bytesAt_mod htailmod).mp (ringWrite_bytesAt (by omega))⟩
  · intro x hx
    rcases List.mem_append.mp hx with hx | hx
    · exact hq x hx
    · rwa [List.mem_singleton.mp hx]

/-- Every record takes at least one byte. -/
theorem Represents.length_le {p : Params} {r : Ring} {q : List (List Byte)} (h : Represents p r q) :
    q.length ≤ r.used := by
  have hsum := List.length_le_sum_of_one_le (q.map List.length) fun n hn => by
    obtain ⟨x, hx, rfl⟩ := List.mem_map.mp hn
    exact recWellFormed_length_pos (h.records x hx)
  rw [h.used, List.length_flatten]
  simpa using hsum

theorem headUnread_append {q : List (List Byte)} {x : List Byte} (hq : HeadUnread q) (hx : recConsumed x = false) :
    HeadUnread (q ++ [x]) := by
  cases q with
  | nil =>
    rintro y ⟨⟩
    exact hx
  | cons z q => exact hq

/-- `Push(rec)` does to the list of records and to OVF what R90 says. -/
theorem Represents.push {p : Params} (hp : p.Ok) {r : Ring} {q : List (List Byte)} {rec : List Byte}
    (h : Represents p r q) (hu : HeadUnread q) (hrec : recWellFormed p rec = true) (hnew : recConsumed rec = false) :
    ∃ r', push p.bufCap rec r = .ok r' ∧ Represents p r' (viewPush p.bufCap rec q r.ovf).1 ∧
      HeadUnread (viewPush p.bufCap rec q r.ovf).1 ∧ r'.ovf = (viewPush p.bufCap rec q r.ovf).2 := by
  have hfuel : q.length ≤ r.used := h.length_le
  obtain ⟨r1, hevict, hrep, hunread, hovf⟩ := h.evictLoop (recWellFormed_fits hp hrec) hu hfuel (le_refl _)
  obtain ⟨_, _, _, hroom, _⟩ := evictLoop_ok hevict
  refine ⟨r1.append p.bufCap rec, by simp only [Machine.push, hevict], hrep.append hrec ?_, ?_, hovf⟩
  · have := hrep.fits
    omega
  · exact headUnread_append hunread hnew

/-! ## PopOne -/

/-- Marking a record consumed writes the one byte of its FLAGS (R82, R88). -/
theorem flatten_recMark {p : Params} {x : List Byte} (hx : recWellFormed p x = true) (a b : List (List Byte)) :
    (a ++ recMark x :: b).flatten =
      (a ++ x :: b).flatten.set (a.flatten.length + 1) (markConsumed (x.getD 1 0)) := by
  obtain ⟨tag, flags, len, payload, rfl, _⟩ := (recWellFormed_iff p x).mp hx
  simp [recMark]

/-- Marking a record consumed replaces it in the list (R88, R90). -/
theorem Represents.mark {p : Params} {r : Ring} {a b : List (List Byte)} {x : List Byte}
    (h : Represents p r (a ++ x :: b)) {off : Nat} (hoff : off % p.bufCap = (r.head + a.flatten.length) % p.bufCap) :
    Represents p { r with buf := r.buf.write ((off + 1) % p.bufCap) (markConsumed (x.getD 1 0)) }
      (a ++ recMark x :: b) := by
  obtain ⟨hwf, hhead, hfits, htail, hused, hbytes, hq⟩ := h
  have hx : recWellFormed p x = true := hq x (by simp)
  have hflat := flatten_recMark hx a b
  have hlt : a.flatten.length + 1 < (a ++ x :: b).flatten.length := by
    obtain ⟨tag, flags, len, payload, rfl, _⟩ := (recWellFormed_iff p x).mp hx
    simp
  have hoff1 : (off + 1) % p.bufCap = (r.head + (a.flatten.length + 1)) % p.bufCap := Nat.ModEq.add_right 1 hoff
  refine ⟨Memory.wf_write _ _ _ hwf, hhead, hfits, htail, ?_, ?_, fun y hy => ?_⟩
  · rw [hflat, List.length_set]
    exact hused
  · rw [hflat, hoff1]
    exact hbytes.write (hused ▸ hfits) hlt _
  · rcases List.mem_append.mp hy with hmem | hmem
    · exact hq y (List.mem_append_left _ hmem)
    · rcases List.mem_cons.mp hmem with rfl | hmem
      · exact recMark_wellFormed hx
      · exact hq y (List.mem_append_right _ (List.mem_cons_of_mem x hmem))

/-- The scan of `PopOne(filter)` over the records `b` behind the records `a` (R88): it takes what R90 takes from `b`. -/
theorem Represents.popScan {p : Params} {r : Ring} {filter : Byte} {a b : List (List Byte)}
    (h : Represents p r (a ++ b)) {fuel off : Nat}
    (hoff : off % p.bufCap = (r.head + a.flatten.length) % p.bufCap) (hfuel : b.flatten.length ≤ fuel) :
    (viewTake filter b = none ∧ popScan p.bufCap filter fuel off b.flatten.length r = .ok (none, r)) ∨
    ∃ x b' r', viewTake filter b = some (x, b') ∧
      popScan p.bufCap filter fuel off b.flatten.length r = .ok (some x, r') ∧
      Represents p r' (viewReclaim (a ++ b')) := by
  induction b generalizing a fuel off with
  | nil =>
    refine .inl ⟨rfl, ?_⟩
    cases fuel <;> simp [Machine.popScan]
  | cons x b ih =>
    have hx : recWellFormed p x = true := h.records x (by simp)
    have hpos := recWellFormed_length_pos hx
    have hc : 0 < p.bufCap := Nat.lt_of_le_of_lt (Nat.zero_le _) h.head
    have hbytes := h.bytes
    rw [List.flatten_append, bytesAt_append, List.flatten_cons, bytesAt_append] at hbytes
    have hat : BytesAt p.bufCap r.buf off x := (bytesAt_mod hoff).mpr hbytes.2.1
    obtain ⟨hheader, _, _⟩ := recordHeaderAt_bytesAt hc hx hat
    rw [List.flatten_cons, List.length_append] at hfuel ⊢
    obtain ⟨fuel, rfl⟩ : ∃ k, fuel = k + 1 := ⟨fuel - 1, by omega⟩
    have hne : ¬ x.length + b.flatten.length = 0 := by omega
    have hle : ¬ x.length + b.flatten.length < x.length := by omega
    simp only [Machine.popScan, if_neg hne, hheader, if_neg hle]
    by_cases hhit : (!recConsumed x && filterMatches filter (x.getD 0 0)) = true
    · have hhit' : (!flagConsumed (x.getD 1 0) && filterMatches filter (x.getD 0 0)) = true := hhit
      obtain ⟨r', hr', hrep⟩ := (h.mark hoff).reclaim
      have hconsume : consumeAt p.bufCap off (x.getD 1 0) r = .ok r' := hr'
      refine .inr ⟨x, recMark x :: b, r', by simp only [viewTake, if_pos hhit], ?_, hrep⟩
      simp only [if_pos hhit', hat.ringRead hc, hconsume]
    · have hhit' : ¬ (!flagConsumed (x.getD 1 0) && filterMatches filter (x.getD 0 0)) = true := hhit
      have hnext : (off + x.length) % p.bufCap % p.bufCap = (r.head + (a ++ [x]).flatten.length) % p.bufCap := by
        have hadd : (off + x.length) % p.bufCap = (r.head + a.flatten.length + x.length) % p.bufCap :=
          Nat.ModEq.add_right _ hoff
        rw [Nat.mod_mod, hadd]
        simp [Nat.add_assoc]
      have hsplit : Represents p r ((a ++ [x]) ++ b) := by simpa using h
      simp only [if_neg hhit', Nat.add_sub_cancel_left, viewTake, if_neg hhit]
      rcases ih hsplit hnext (fuel := fuel) (by omega) with ⟨htake, hscan⟩ | ⟨y, b', r', htake, hscan, hrep⟩
      · exact .inl ⟨by rw [htake], hscan⟩
      · exact .inr ⟨y, x :: b', r', by rw [htake], hscan, by simpa using hrep⟩

/-- `PopOne(filter)` does to the list of records what R90 says. -/
theorem Represents.popOne {p : Params} {r : Ring} {q : List (List Byte)} (h : Represents p r q) (hu : HeadUnread q)
    (filter : Byte) :
    ∃ r', popOne p.bufCap filter r = .ok ((viewPop filter q).1, r') ∧ Represents p r' (viewPop filter q).2 ∧
      HeadUnread (viewPop filter q).2 := by
  have hsplit : Represents p r ([] ++ q) := h
  have hscan := hsplit.popScan (filter := filter) (off := r.head) rfl h.used.ge
  rw [← h.used] at hscan
  unfold Machine.popOne viewPop
  rcases hscan with ⟨htake, hpop⟩ | ⟨x, q', r', htake, hpop, hrep⟩
  · rw [htake, hpop]
    exact ⟨r, rfl, h, hu⟩
  · rw [htake, hpop]
    exact ⟨r', rfl, hrep, viewReclaim_headUnread q'⟩

/-! ## The ring invariants -/

/-- A push of a well-formed unread record keeps the ring invariants (R47, R85). -/
theorem ringOk_push {p : Params} (hp : p.Ok) {r r' : Ring} {rec : List Byte} (h : r.Ok p)
    (hrec : recWellFormed p rec = true) (hnew : recConsumed rec = false) (hpush : push p.bufCap rec r = .ok r') :
    r'.Ok p := by
  obtain ⟨q, hrep, hu⟩ := (ringOk_iff p r).mp h
  obtain ⟨r1, h1, hrep1, hu1, _⟩ := hrep.push hp hu hrec hnew
  cases h1.symm.trans hpush
  exact (ringOk_iff p r').mpr ⟨_, hrep1, hu1⟩

/-- A pop keeps the ring invariants (R47, R88). -/
theorem ringOk_popOne {p : Params} {r r' : Ring} {filter : Byte} {out : Option (List Byte)} (h : r.Ok p)
    (hpop : popOne p.bufCap filter r = .ok (out, r')) : r'.Ok p := by
  obtain ⟨q, hrep, hu⟩ := (ringOk_iff p r).mp h
  obtain ⟨r1, h1, hrep1, hu1⟩ := hrep.popOne hu filter
  cases h1.symm.trans hpop
  exact (ringOk_iff p r').mpr ⟨_, hrep1, hu1⟩

end Sys2Proof.Machine
end

section
/-! SUPPORT. The records a tick pushes (44_tick_sequencer.md R253, R255) are well formed and unread, so that every step keeps
the ring invariants. -/

namespace Sys2Proof.Machine

/-- The fetch of a block list gathers its whole length, whatever the bus target answers (R253, R254). -/
theorem fetchBlocks_length (bus : BusRef) (dev : Byte) (bs : List Block) (err : Bool) (s : State) :
    (fetchBlocks bus dev bs err s).data.length = blockTotal bs := by
  induction bs generalizing err s with
  | nil => rfl
  | cons b bs ih =>
    have htotal : blockTotal (b :: bs) = b.cnt.toNat + blockTotal bs := by simp [blockTotal]
    rw [htotal]
    cases err with
    | true => simp [fetchBlocks, ih]
    | false =>
      simp only [fetchBlocks]
      split
      · next bytes s' hread =>
        have hlen : bytes.length = b.cnt.toNat := busRead_length bus dev b.reg b.cnt.toNat s bytes (by rw [hread])
        simp [ih, hlen]
      · simp [ih]

theorem leBytes_length (k n : Nat) : (leBytes k n).length = k := by
  induction k generalizing n with
  | zero => rfl
  | succ k ih => simp [leBytes, ih]

theorem recordPayload_length (tsEn : Bool) (data : List Byte) (ts : BitVec 64) :
    (recordPayload tsEn data ts).length = data.length + tsLen tsEn := by
  cases tsEn <;> simp [recordPayload, tsLen, le64, leBytes_length]

/-- The FLAGS byte of a new record: the reserved bits are 0, TS is as asked for, CONSUMED is 0 (R82, R255). -/
theorem recordFlags_bits (tsEn err : Bool) :
    (recordFlags tsEn err).extractLsb' 2 5 = 0 ∧ flagTs (recordFlags tsEn err) = tsEn ∧
    flagConsumed (recordFlags tsEn err) = false := by
  revert tsEn err
  decide

/-- A descriptor asks for at least one byte (R45). -/
theorem blockTotal_pos {bs : List Block} (hsome : bs ≠ []) (hcnt : ∀ b ∈ bs, b.cnt ≠ 0) : 1 ≤ blockTotal bs := by
  obtain ⟨b, bs, rfl⟩ := List.exists_cons_of_ne_nil hsome
  have hb : b.cnt.toNat ≠ 0 := fun h0 => hcnt b List.mem_cons_self (BitVec.eq_of_toNat_eq h0)
  simp only [blockTotal, List.map_cons, List.sum_cons]
  omega

/-- The record of a channel whose descriptor passed STR_CFG is well formed and unread (R45, R82, R255). -/
theorem formatRecord_wellFormed {p : Params} (hp : p.Ok) {d : Channel} (hd : d.DescriptorOk p) {c : Nat}
    (hc : c < p.nChannels) {data : List Byte} (hdata : data.length = blockTotal d.blocks) (err : Bool)
    (ts : BitVec 64) :
    recWellFormed p (formatRecord c d.tsEn err data ts) = true ∧
    recConsumed (formatRecord c d.tsEn err data ts) = false := by
  obtain ⟨_, hsome, _, hcnt, hfits, _⟩ := hd
  obtain ⟨_, _, _, _, _, ⟨_, hch⟩, _, ⟨_, hcap⟩, _⟩ := hp
  obtain ⟨hreserved, hts, hconsumed⟩ := recordFlags_bits d.tsEn err
  have hlen := recordPayload_length d.tsEn data ts
  have hpos := blockTotal_pos hsome hcnt
  refine ⟨(recWellFormed_iff p _).mpr ⟨_, _, _, _, rfl, ?_, hreserved, ?_, by omega, by omega, fun ht => ?_⟩, hconsumed⟩
  · rwa [BitVec.toNat_ofNat, Nat.mod_eq_of_lt (by omega)]
  · rw [BitVec.toNat_ofNat, Nat.mod_eq_of_lt (by omega)]
  · have htrue : d.tsEn = true := hts.symm.trans ht
    rw [hlen, htrue]
    exact Nat.le_add_left _ _

/-- Every record a tick samples is well formed and unread (R253, R255). -/
theorem sample_wellFormed {s : State} (hs : s.Shaped) (hd : s.DescriptorsOk) {c : Nat} (hc : c < s.cfg.nChannels)
    (hv : (s.channel c).valid = true) (ts : BitVec 64) :
    recWellFormed s.cfg (sample c ts s).1 = true ∧ recConsumed (sample c ts s).1 = false := by
  obtain ⟨hok, _⟩ := hs
  exact formatRecord_wellFormed hok (hd _ (channel_mem s c hv) hv) hc (fetchBlocks_length _ _ _ _ _) _ ts

/-- The ring invariants with the parameters and the descriptors they rest on (R6, R45, R47). -/
structure RingSound (s : State) : Prop where
  shaped : s.Shaped
  descriptors : s.DescriptorsOk
  ring : s.ring.Ok s.cfg

theorem ringSound_stepKept : StepKept RingSound where
  bookkeeping hb h := by
    rw [hb]
    exact ⟨h.shaped, h.descriptors, h.ring⟩
  command {s e} hc h := by
    have hring : e.ring.Ok e.cfg := by
      rw [hc.effect.frame]
      exact h.ring
    exact ⟨shaped_stepKept.command hc h.shaped, descriptorsOk_stepKept.command hc h.descriptors, hring⟩
  popped hpop h := ⟨h.shaped, h.descriptors, ringOk_popOne h.ring hpop⟩
  traces hb h := by
    rw [hb]
    exact ⟨h.shaped, h.descriptors, h.ring⟩
  taken _ h := ⟨h.shaped, h.descriptors, h.ring⟩
  fireCounted h := ⟨shaped_stepKept.fireCounted h.shaped, descriptorsOk_stepKept.fireCounted h.descriptors, h.ring⟩
  served hc hv hpush h := by
    obtain ⟨hrec, hnew⟩ := sample_wellFormed h.shaped h.descriptors hc hv _
    exact ⟨shaped_stepKept.served hc hv hpush h.shaped, descriptorsOk_stepKept.served hc hv hpush h.descriptors,
      ringOk_push h.shaped.1 h.ring hrec hnew hpush⟩
  stopped {s} h := by
    have hring : (stopProcedure s).ring.Ok (stopProcedure s).cfg := by
      rw [stopProcedure_frame]
      exact h.ring
    exact ⟨shaped_stepKept.stopped h.shaped, descriptorsOk_stepKept.stopped h.descriptors, hring⟩
  readEnded {s} h := by
    have hring : Ring.Ok s.cfg { s.ring with ovf := false } := h.ring
    exact ⟨h.shaped, h.descriptors, hring⟩
  ticked {s} hw h := by
    have hring : (usTick s).ring.Ok (usTick s).cfg := by
      rw [usTick_frame]
      exact h.ring
    exact ⟨shaped_stepKept.ticked hw h.shaped, descriptorsOk_stepKept.ticked hw h.descriptors, hring⟩
  pinChanged {s} p v hw h := by
    have hring : (pinChange p v s).ring.Ok (pinChange p v s).cfg := by
      rw [pinChange_frame]
      exact h.ring
    exact ⟨shaped_stepKept.pinChanged p v hw h.shaped, descriptorsOk_stepKept.pinChanged p v hw h.descriptors, hring⟩

/-- The empty ring after reset (R55). -/
theorem resetStep_ringOk {s : State} (h : s.cfg.Ok) : (resetStep s).ring.Ok (resetStep s).cfg := by
  have hcap : 0 < s.cfg.bufCap := by
    obtain ⟨_, _, _, _, _, _, _, _, ⟨hcap, _⟩, _⟩ := h
    unfold hdrBytes at hcap
    omega
  refine (ringOk_iff _ _).mpr ⟨[], ⟨.nil, hcap, Nat.zero_le _, ?_, rfl, nofun, nofun⟩, nofun⟩
  exact (Nat.zero_mod s.cfg.bufCap).symm

/-- Settles O54: the ring is written by Push and PopOne alone, and the records of a tick are well formed. -/
theorem stepKeepsRing : Obligations.StepKeepsRing := by
  intro s t hs hd hr h
  rcases ringSound_stepKept.step ⟨hs, hd, hr⟩ h with ht | ⟨_, _, rfl⟩
  · exact ht.ring
  · refine resetStep_ringOk ?_
    rw [advance_frame]
    exact hs.1

end Sys2Proof.Machine
end

section
/-! SUPPORT. The response ring's own statements (20_memory.md): what commands leave of it (R80), its bytes (R84), and Push
and PopOne against the list of records (R85 to R88, R90). -/

namespace Sys2Proof.Machine

/-! ## Commands -/

/-- What a command can write (R12): beside the tables, the engine and TRIGQ, the read in progress, the response and the
count of free values. -/
theorem CommandStep.frame {i : Instr} {s t : State} (h : CommandStep i s t) :
    t = { s with
      i2c := t.i2c, spi := t.spi, tmr := t.tmr, bind := t.bind, ch := t.ch, eng := t.eng, trigq := t.trigq,
      rd := t.rd, rsp := t.rsp, free := t.free } := by
  cases h with
  | rejected st _ => rfl
  | accepted e payload effect =>
    rw [effect.frame]
    rfl
  | readBegun chf maxRecords _ => rfl

/-- Settles O12: the ring and the time base are not among what a command can write. -/
theorem commandsLeaveRingAndTime : Obligations.CommandsLeaveRingAndTime := by
  intro i s t h
  have hframe := (commandStep_of_exec h).frame
  have hring : t.ring = s.ring := by rw [hframe]
  exact ⟨fun a => by rw [hring], hframe⟩

/-! ## Bytes of the ring space -/

/-- Settles O33: the bytes stand where they were written, so they are read back, and nothing else is touched. -/
theorem ringWriteReadsBack : Obligations.RingWriteReadsBack := by
  intro cap off m bytes hoff hlen
  have hat : BytesAt cap (ringWrite cap m off bytes) off bytes := ringWrite_bytesAt hlen
  refine ⟨hat.ringRead (Nat.zero_lt_of_lt hoff), fun k hk => ?_, ringWrite_read_outside cap bytes m off⟩
  rw [hat k hk, List.getElem?_eq_getElem hk]

/-! ## The ring against the list of records -/

/-- A ring with the invariants of R47 lays out the records of its abstract view, the oldest unread (R90). -/
theorem represents_of_view {p : Params} {r : Ring} {q : List (List Byte)} (h : r.Ok p)
    (hview : r.view p.bufCap = some q) : Represents p r q ∧ HeadUnread q := by
  obtain ⟨q', hrep, hunread⟩ := (ringOk_iff p r).mp h
  obtain rfl : q' = q := Option.some.inj (hrep.view.symm.trans hview)
  exact ⟨hrep, hunread⟩

theorem Represents.used_eq_viewUsed {p : Params} {r : Ring} {q : List (List Byte)} (h : Represents p r q) :
    r.used = viewUsed q := h.used.trans (viewUsed_eq q).symm

/-- Settles O34: `Represents.push`, read off the abstract view. -/
theorem pushRefinesAbstractPush : Obligations.PushRefinesAbstractPush := by
  intro p r rec q hp hr hview hrec hnew
  obtain ⟨hrep, hunread⟩ := represents_of_view hr hview
  obtain ⟨r', hpush, hrep', hunread', hovf⟩ := hrep.push hp hunread hrec hnew
  exact ⟨r', hpush, (ringOk_iff p r').mpr ⟨_, hrep', hunread'⟩, hrep'.view, hovf, hrep'.used_eq_viewUsed⟩

/-- Settles O35: `Represents.popOne`, read off the abstract view; `popOne_ok` gives OVF. -/
theorem popRefinesAbstractPop : Obligations.PopRefinesAbstractPop := by
  intro p r filter q _ hr hview
  obtain ⟨hrep, hunread⟩ := represents_of_view hr hview
  obtain ⟨r', hpop, hrep', hunread'⟩ := hrep.popOne hunread filter
  obtain ⟨_, hovf, _⟩ := popOne_ok hpop
  exact ⟨r', hpop, (ringOk_iff p r').mpr ⟨_, hrep', hunread'⟩, hrep'.view, hovf, hrep'.used_eq_viewUsed⟩

/-! ## The order of delivery -/

/-- The record `PopOne(filter)` looks for: unread, and matching the filter (R88). -/
def popsRecord (filter : Byte) (x : List Byte) : Bool := !recConsumed x && filterMatches filter (x.getD 0 0)

/-- R90's pop takes the first record that `PopOne(filter)` looks for, marked in the list. -/
theorem viewTake_cons (filter : Byte) (x : List Byte) (q : List (List Byte)) :
    viewTake filter (x :: q) =
      if popsRecord filter x then some (x, recMark x :: q)
      else (viewTake filter q).map fun taken => (taken.1, x :: taken.2) := by
  simp only [viewTake, popsRecord]
  cases viewTake filter q <;> rfl

theorem viewTake_fst (filter : Byte) (q : List (List Byte)) :
    (viewTake filter q).map Prod.fst = q.find? (popsRecord filter) := by
  induction q with
  | nil => rfl
  | cons x q ih =>
    rw [viewTake_cons, List.find?_cons]
    cases popsRecord filter x with
    | true => rfl
    | false => simpa [Function.comp_def] using ih

theorem viewPop_fst (filter : Byte) (q : List (List Byte)) : (viewPop filter q).1 = q.find? (popsRecord filter) := by
  rw [← viewTake_fst]
  unfold viewPop
  cases viewTake filter q <;> rfl

/-- With the filter ALL the record at the head is the one, when it is unread (R47(c), R88). -/
theorem find?_popsRecord_all {q : List (List Byte)} (h : HeadUnread q) : q.find? (popsRecord 0xFF) = q.head? := by
  cases q with
  | nil => rfl
  | cons x q =>
    have hx : recConsumed x = false := h x rfl
    exact List.find?_cons_of_pos (by simp [popsRecord, filterMatches, hx])

/-- Settles O36: PopOne delivers what R90's pop delivers, which is the first match. -/
theorem popDeliversOldestMatch : Obligations.PopDeliversOldestMatch := by
  intro p r r' filter out q _ hr hview hpop
  obtain ⟨hrep, hunread⟩ := represents_of_view hr hview
  obtain ⟨r1, hpop1, _, _⟩ := hrep.popOne hunread filter
  have hout : out = q.find? (popsRecord filter) := by
    rw [← viewPop_fst]
    cases hpop.symm.trans hpop1
    rfl
  refine ⟨hout, ?_⟩
  rintro rfl
  rw [hout, find?_popsRecord_all hunread]

end Sys2Proof.Machine
end

section
/-! SUPPORT. Words as the fields they are made of (00_scope.md R11): a word is put together again from its fields, with
the reserved ones 0, and the codes of the operands (30_encoding.md R123, R124) are put together again from what they
decode to. -/

namespace Sys2Proof

/-- Bit `k` of the field at `lo`, put back where it was read. -/
theorem getLsbD_place_field (w : Word) (lo len k : Nat) (hk : k < 32) :
    (place (field w lo len) lo).getLsbD k = (decide (lo ≤ k ∧ k < lo + len) && w.getLsbD k) := by
  by_cases hlo : lo ≤ k
  · have hsum : lo + (k - lo) = k := by omega
    have hiff : k - lo < len ↔ k < lo + len := by omega
    simp [place, field, hk, hlo, hsum, hiff]
  · simp [place, hk, hlo]

/-- Bits lo+len-1 down to lo of a word are 0: what R138 asks of a reserved field. -/
def Clear (w : Word) (lo len : Nat) : Prop := field w lo len = 0

@[simp] theorem clear_none (w : Word) (lo : Nat) : Clear w lo 0 := Subsingleton.elim _ _

theorem Clear.getLsbD {w : Word} {lo len : Nat} (h : Clear w lo len) (k : Nat) (hlo : lo ≤ k) (hhi : k < lo + len) :
    w.getLsbD k = false := by
  have hbit := congrArg (fun v => v.getLsbD (k - lo)) h
  have hsum : lo + (k - lo) = k := by omega
  have hlt : k - lo < len := by omega
  simpa [field, hsum, hlt] using hbit

/-- Two fields with nothing but a reserved field between them, all put back, are one field put back. -/
@[simp] theorem place_field_gap (w : Word) (hi b lo a : Nat) (hle : lo + a ≤ hi)
    (hgap : Clear w (lo + a) (hi - (lo + a))) :
    place (field w hi b) hi ||| place (field w lo a) lo = place (field w lo (hi + b - lo)) lo := by
  apply BitVec.eq_of_getLsbD_eq
  intro k hk
  rw [BitVec.getLsbD_or, getLsbD_place_field w _ _ k hk, getLsbD_place_field w _ _ k hk,
    getLsbD_place_field w _ _ k hk]
  by_cases hmid : lo + a ≤ k ∧ k < hi
  · simp [hgap.getLsbD k hmid.1 (by omega)]
  · rw [← Bool.and_or_distrib_right, ← Bool.decide_or]
    congr 2
    exact propext (by omega)

/-- A field with nothing but reserved fields above and below it, put back, is the word. -/
@[simp] theorem place_field_eq (w : Word) (lo len : Nat) (hlow : Clear w 0 lo)
    (hhigh : Clear w (lo + len) (32 - (lo + len))) : place (field w lo len) lo = w := by
  apply BitVec.eq_of_getLsbD_eq
  intro k hk
  rw [getLsbD_place_field w _ _ k hk]
  by_cases hlo : k < lo
  · simp [hlow.getLsbD k (Nat.zero_le k) (by omega)]
  · by_cases hhi : k < lo + len
    · simp [Nat.not_lt.mp hlo, hhi]
    · simp [hhigh.getLsbD k (Nat.not_lt.mp hhi) (by omega)]

@[simp] theorem ofBool_flag (w : Word) (i : Nat) : BitVec.ofBool (flag w i) = field w i 1 := by
  apply BitVec.eq_of_getLsbD_eq
  intro k hk
  obtain rfl : k = 0 := by omega
  simp [field, flag]

@[simp] theorem BusRef.code_ofCode (b : Byte) : (BusRef.ofCode b).code = b := by
  revert b
  decide

@[simp] theorem BusRef.ofCode_code (r : BusRef) : BusRef.ofCode r.code = r := by
  obtain ⟨kind, idx⟩ := r
  revert idx
  cases kind <;> decide

@[simp] theorem Policy.code_ofCode (c : BitVec 2) : (Policy.ofCode c).code = c := by
  revert c
  decide

@[simp] theorem UnitCode.code_ofCode (c : BitVec 2) : (UnitCode.ofCode c).code = c := by
  revert c
  decide

theorem Opcode.ofCode?_eq_some_iff (c : Byte) (op : Opcode) : Opcode.ofCode? c = some op ↔ c = op.code := by
  constructor
  · intro h
    have hall : ∀ c : Byte, ((Opcode.ofCode? c).all fun op => decide (c = op.code)) = true := by decide
    have hc := hall c
    rw [h] at hc
    exact of_decide_eq_true hc
  · rintro rfl
    exact Opcode.ofCode?_code op

/-- The length of a frame (R121): two words for TMR_START, by NB for STR_CFG, and one for every other `OPC`. -/
theorem frameWords_eq (h : Word) :
    frameWords h =
      if opcOf h = 0x11 then 2 else if opcOf h = 0x30 then 2 + (h.extractLsb' 20 4).toNat else 1 := by
  unfold frameWords
  split
  · next hop =>
    have h11 : opcOf h = 0x11 := (Opcode.ofCode?_eq_some_iff _ .tmrStart).mp hop
    rw [if_pos h11]
  · next hop =>
    have h30 : opcOf h = 0x30 := (Opcode.ofCode?_eq_some_iff _ .strCfg).mp hop
    rw [if_neg (by rw [h30]; decide), if_pos h30]
    rfl
  · next hstart hcfg =>
    have h11 : opcOf h ≠ 0x11 := mt (Opcode.ofCode?_eq_some_iff _ .tmrStart).mpr hstart
    have h30 : opcOf h ≠ 0x30 := mt (Opcode.ofCode?_eq_some_iff _ .strCfg).mpr hcfg
    rw [if_neg h11, if_neg h30]

/-- When the decoder answers a command (R121, R138): R121 lists the opcode, the length is the one the header asks for,
and no reserved field stands in the way. -/
theorem decode_eq_ok_iff (h : Word) (ext : List Word) (i : Instr) :
    decode (h :: ext) = .ok i ↔
      ∃ op : Opcode, opcOf h = op.code ∧ ext.length + 1 = frameWords h ∧ decodeFields op h ext = some i := by
  simp only [← Opcode.ofCode?_eq_some_iff]
  cases hop : Opcode.ofCode? (opcOf h) with
  | none => cases ext <;> simp [decode, hop]
  | some op =>
    by_cases hlen : ext.length + 1 = frameWords h
    · cases hd : decodeFields op h ext <;> simp [decode, hop, hlen, hd]
    · simp [decode, hop, hlen]

end Sys2Proof
end

section
/-! SUPPORT. The decoder and the encoder are inverse (30_encoding.md R121 to R135): the fields of a header that is made
of placed fields read as they were placed, and a header that decodes is the `|||` of its fields. -/

namespace Sys2Proof

/-- The header of a well-formed command carries its opcode, and its frame is as long as the header says (R121). -/
theorem frameShape (i : Instr) : Laws.FrameShape.Statement i := by
  cases i with
  | busCfg bus speed bmode => exact Laws.FrameShape.busCfg bus speed bmode
  | busCfgw bus speed w16 bmode => exact Laws.FrameShape.busCfgw bus speed w16 bmode
  | busDecfg bus => exact Laws.FrameShape.busDecfg bus
  | tmrCfg inst tag => exact Laws.FrameShape.tmrCfg inst tag
  | tmrStart inst oneshot timeout => exact Laws.FrameShape.tmrStart inst oneshot timeout
  | tmrStop inst => exact Laws.FrameShape.tmrStop inst
  | tmrReset inst => exact Laws.FrameShape.tmrReset inst
  | intAttach pin policy tag => exact Laws.FrameShape.intAttach pin policy tag
  | intDetach pin => exact Laws.FrameShape.intDetach pin
  | strCfg chan bus dev period unit tsEn intEn intPol intPin blocks =>
    exact Laws.FrameShape.strCfg chan bus dev period unit tsEn intEn intPol intPin blocks
  | strStart mode count => exact Laws.FrameShape.strStart mode count
  | strStop mode count => exact Laws.FrameShape.strStop mode count
  | strRead chf maxRecords => exact Laws.FrameShape.strRead chf maxRecords
  | getMs => exact Laws.FrameShape.getMs
  | getUs => exact Laws.FrameShape.getUs

/-! ## Decoding an encoded command -/

theorem field_blockWord (b : Block) : field b.word 16 16 = 0 ∧ Block.ofWord b.word = b := by
  simp (disch := decide) [Block.word, Block.ofWord, field_or, field_place_same, field_place_disjoint]

theorem blocksOfWords_map_word (bs : List Block) : blocksOfWords (bs.map Block.word) = some bs := by
  induction bs with
  | nil => rfl
  | cons b bs ih => simp [blocksOfWords, field_blockWord, ih]

theorem field_strCfgWord (period : BitVec 16) (unit : UnitCode) (tsEn intEn : Bool) (intPol : Policy) (intPin : Byte) :
    let e0 := strCfgWord period unit tsEn intEn intPol intPin
    field e0 16 16 = period ∧ field e0 14 2 = unit.code ∧ flag e0 13 = tsEn ∧ flag e0 12 = intEn ∧
      field e0 10 2 = intPol.code ∧ field e0 8 2 = 0 ∧ field e0 0 8 = intPin := by
  simp (disch := decide) [strCfgWord, field_or, field_place_same, field_place_disjoint, flag_or, flag_place_ofBool,
    flag_place_disjoint]

/-- Every field of the frame of a command reads as the operand it was made from, and the reserved fields read 0. -/
theorem decodeFields_encode (i : Instr) : decodeFields i.opcode i.header i.extension = some i := by
  cases i with
  | strCfg chan bus dev period unit tsEn intEn intPol intPin blocks =>
    obtain ⟨hperiod, hunit, hts, hint, hpol, hres, hpin⟩ := field_strCfgWord period unit tsEn intEn intPol intPin
    simp (disch := decide) [Instr.opcode, Instr.header, Instr.extension, decodeFields, decodeStrCfg, field_or,
      field_place_same, field_place_disjoint, blocksOfWords_map_word, hperiod, hunit, hts, hint, hpol, hres, hpin]
  | strStart mode count =>
    have hstart : flag (place 1#1 16) 16 = true := by decide
    simp (disch := decide) [Instr.opcode, Instr.header, decodeFields, field_or, field_place_same, field_place_disjoint,
      flag_or, flag_place_ofBool, flag_place_disjoint, hstart]
  | _ =>
    simp (disch := decide) [Instr.opcode, Instr.header, Instr.extension, decodeFields, fieldA, field_or,
      field_place_same, field_place_disjoint, flag_or, flag_place_ofBool, flag_place_disjoint]

/-- Settles O1: opcode and length by `frameShape`, the operands by `decodeFields_encode`. -/
theorem decodeInvertsEncode : Obligations.DecodeInvertsEncode := by
  intro i hwf
  obtain ⟨hop, hlen⟩ := frameShape i hwf
  exact (decode_eq_ok_iff i.header i.extension i).mpr ⟨i.opcode, hop, hlen, decodeFields_encode i⟩

/-! ## Encoding a decoded command -/

theorem word_ofWord {w : Word} (h : field w 16 16 = 0) : (Block.ofWord w).word = w := by
  have hclear : Clear w 16 16 := h
  simp [Block.word, Block.ofWord, hclear]

theorem map_word_of_blocksOfWords {ws : List Word} {bs : List Block} (h : blocksOfWords ws = some bs) :
    bs.map Block.word = ws := by
  induction ws generalizing bs with
  | nil =>
    cases h
    rfl
  | cons w ws ih =>
    obtain ⟨hres, htail⟩ := Option.ite_none_right_eq_some.mp h
    split at htail
    · next bs' hbs =>
      cases htail
      rw [List.map_cons, word_ofWord hres, ih hbs]
    · cases htail

/-- Every command but TMR_START and STR_CFG is one word (R121). -/
theorem extension_eq_nil {h : Word} {ext : List Word} {op : Opcode} (hop : opcOf h = op.code)
    (hlen : ext.length + 1 = frameWords h) (hone : op ≠ .tmrStart ∧ op ≠ .strCfg) : ext = [] := by
  have hcodes : op.code ≠ 0x11 ∧ op.code ≠ 0x30 := by
    revert hone
    cases op <;> decide
  rw [frameWords_eq, hop, if_neg hcodes.1, if_neg hcodes.2] at hlen
  exact List.eq_nil_of_length_eq_zero (by omega)

/-- The frame of a STR_CFG that decodes: its header, its word E0 and its block words are the `|||` of their fields, and
NB counts the blocks (R132, R133). -/
theorem encode_of_decodeStrCfg {h : Word} {ext : List Word} {i : Instr} (hop : opcOf h = Opcode.strCfg.code)
    (hlen : ext.length + 1 = frameWords h) (hd : decodeStrCfg h ext = some i) :
    encode i = h :: ext ∧ i.wf = true := by
  cases ext with
  | nil => cases hd
  | cons e0 ws =>
    obtain ⟨hres, hblocks⟩ := Option.ite_none_right_eq_some.mp hd
    split at hblocks
    · next bs hbs =>
      cases hblocks
      have hws := map_word_of_blocksOfWords hbs
      have hnb : bs.length = (field h 20 4).toNat := by
        have hcount : ws.length = bs.length := by rw [← hws, List.length_map]
        rw [frameWords_eq, hop, if_neg (by decide), if_pos (by rfl)] at hlen
        change ws.length + 1 + 1 = 2 + (field h 20 4).toNat at hlen
        omega
      constructor
      · simp [encode, Instr.header, Instr.extension, strCfgWord, hws, hnb, show 0x30#8 = field h 24 8 from hop.symm,
          show Clear e0 8 2 from hres]
      · have hlt := (field h 20 4).isLt
        exact decide_eq_true (show bs.length ≤ 15 by omega)
    · cases hblocks

/-- A frame that decodes is put together again from its fields, the reserved ones 0 (R125 to R135). -/
theorem encode_of_decodeFields {op : Opcode} {h : Word} {ext : List Word} {i : Instr} (hop : opcOf h = op.code)
    (hlen : ext.length + 1 = frameWords h) (hd : decodeFields op h ext = some i) :
    encode i = h :: ext ∧ i.wf = true := by
  cases op with
  | strCfg => exact encode_of_decodeStrCfg hop hlen hd
  | tmrStart =>
    rw [frameWords_eq, hop, if_pos (by rfl)] at hlen
    obtain ⟨e0, rfl⟩ := List.length_eq_one_iff.mp (Nat.succ.inj hlen)
    obtain ⟨hres, ⟨⟩⟩ := Option.ite_none_right_eq_some.mp hd
    simp [encode, Instr.header, Instr.extension, Instr.wf, fieldA, show 0x11#8 = field h 24 8 from hop.symm,
      show Clear h 1 15 from hres]
  | strStartStop =>
    obtain rfl := extension_eq_nil hop hlen (by decide)
    obtain ⟨hres, hmode⟩ := Option.ite_none_right_eq_some.mp hd
    have hopc : 0x31#8 = field h 24 8 := hop.symm
    have hclear : Clear h 18 6 := hres
    have hbit := ofBool_flag h 16
    cases hflag : flag h 16 with
    | true =>
      rw [hflag] at hmode hbit
      cases hmode
      simp [encode, Instr.header, Instr.extension, Instr.wf, hopc, hclear, show 1#1 = field h 16 1 from hbit]
    | false =>
      rw [hflag] at hmode hbit
      cases hmode
      simp [encode, Instr.header, Instr.extension, Instr.wf, hopc, hclear, show Clear h 16 1 from hbit.symm]
  | busCfg | busCfgw | busDecfg | tmrCfg | tmrStop | tmrReset | intAttach | intDetach | getMs | getUs =>
    obtain rfl := extension_eq_nil hop hlen (by decide)
    obtain ⟨hres, ⟨⟩⟩ := Option.ite_none_right_eq_some.mp hd
    have hclear : Clear h _ _ := hres
    have hopc : Opcode.code _ = field h 24 8 := hop.symm
    simp only [Opcode.code, BitVec.ofNat_eq_ofNat] at hopc
    simp [encode, Instr.header, Instr.extension, Instr.wf, fieldA, hopc, hclear]
  | strRead =>
    obtain rfl := extension_eq_nil hop hlen (by decide)
    cases hd
    simp [encode, Instr.header, Instr.extension, Instr.wf, fieldA, show 0x32#8 = field h 24 8 from hop.symm]

/-- Settles O2, by putting each frame together again from its fields (`encode_of_decodeFields`). -/
theorem encodeInvertsDecode : Obligations.EncodeInvertsDecode := by
  intro frame i hd
  cases frame with
  | nil => cases hd
  | cons h ext =>
    obtain ⟨op, hop, hlen, hfields⟩ := (decode_eq_ok_iff h ext i).mp hd
    exact encode_of_decodeFields hop hlen hfields

end Sys2Proof
end

section
/-! SUPPORT. The rows of the opcode table (30_encoding.md R138, R143): the mask of a row covers `OPC` and the reserved
field of the header, so that a header selects one row at most, and the frames that decode are those whose header selects
a row and whose extension words have their reserved bits 0. -/

namespace Sys2Proof.Machine

/-! ## Words under a mask -/

theorem field_and (x y : Word) (lo len : Nat) : field (x &&& y) lo len = field x lo len &&& field y lo len :=
  BitVec.extractLsb'_and

/-- A word under a mask that covers a field shows that field. -/
theorem field_of_masked {w m v : Word} (lo len : Nat) (h : w &&& m = v) (hm : field m lo len = BitVec.allOnes len) :
    field w lo len = field v lo len := by
  rw [← h, field_and, hm, BitVec.and_allOnes]

/-- A placed field under a mask keeps the bits that the mask has at its place. -/
theorem place_and (v : BitVec n) (lo : Nat) (m : Word) : place v lo &&& m = place (v &&& field m lo n) lo := by
  apply BitVec.eq_of_getLsbD_eq
  intro k hk
  by_cases hlo : k < lo
  · simp [place, hlo]
  · by_cases hn : k - lo < n
    · simp [place, field, hk, hn, Nat.add_sub_cancel' (Nat.not_lt.mp hlo), Bool.and_assoc]
    · simp [place, hk, BitVec.getLsbD_of_ge v _ (Nat.not_lt.mp hn)]

/-! ## Rows -/

theorem selectsRow_iff (h : Word) (j : Instr) : selectsRow h j = true ↔ h &&& j.rowMask = j.rowMatch := by
  simp [selectsRow]

theorem selectsRow_congr {i j : Instr} (h : Word) (hmatch : j.rowMatch = i.rowMatch) (hmask : j.rowMask = i.rowMask) :
    selectsRow h j = selectsRow h i := by
  rw [selectsRow, selectsRow, hmatch, hmask]

/-- Every row of the table fixes `OPC`, and the rows of one `OPC` have one mask (R143). -/
theorem rowTable_masks :
    (rowTable.all fun r => decide (field r.1 24 8 = BitVec.allOnes 8) &&
      rowTable.all fun r' => decide (opcOf r.2 = opcOf r'.2 → r.1 = r'.1)) = true := by decide

theorem rowMask_opc (j : Instr) : field j.rowMask 24 8 = BitVec.allOnes 8 := by
  have hrow := List.all_eq_true.mp rowTable_masks _ (row_mem j)
  exact of_decide_eq_true (Bool.and_eq_true_iff.mp hrow).1

theorem rowMask_eq_of_opc {i j : Instr} (h : opcOf j.rowMatch = opcOf i.rowMatch) : j.rowMask = i.rowMask := by
  have hrow := List.all_eq_true.mp rowTable_masks _ (row_mem j)
  exact of_decide_eq_true (List.all_eq_true.mp (Bool.and_eq_true_iff.mp hrow).2 _ (row_mem i)) h

theorem opcOf_rowMatch (j : Instr) : opcOf j.rowMatch = j.opcode.code := by
  cases j <;> simp only [Instr.rowMatch, Instr.opcode, Opcode.code] <;> decide

theorem opcOf_of_selectsRow {h : Word} {j : Instr} (hj : selectsRow h j = true) : opcOf h = opcOf j.rowMatch :=
  field_of_masked 24 8 ((selectsRow_iff h j).mp hj) (rowMask_opc j)

/-- A header selects one row at most (R143). -/
theorem selectsRow_unique {h : Word} {i j : Instr} (hi : selectsRow h i = true) (hj : selectsRow h j = true) :
    j.rowMatch = i.rowMatch ∧ j.rowMask = i.rowMask := by
  have hmask : j.rowMask = i.rowMask :=
    rowMask_eq_of_opc ((opcOf_of_selectsRow hj).symm.trans (opcOf_of_selectsRow hi))
  refine ⟨?_, hmask⟩
  rw [← (selectsRow_iff h j).mp hj, ← (selectsRow_iff h i).mp hi, hmask]

/-- The header of a command selects the command's row: under the mask `OPC` stays, and of the operands nothing but the
bit that tells STR_START from STR_STOP. -/
theorem selectsRow_header (i : Instr) : selectsRow i.header i = true := by
  rw [selectsRow_iff]
  cases i <;> simp only [Instr.header, Instr.rowMask, Instr.rowMatch, BitVec.and_or_distrib_right, place_and] <;>
    simp [place, field]

theorem selectsRow_of_decode {h : Word} {ext : List Word} {i : Instr} (hd : decode (h :: ext) = .ok i) :
    selectsRow h i = true := by
  have hh : i.header = h := (List.cons.inj (encodeInvertsDecode _ i hd).1).1
  rw [← hh]
  exact selectsRow_header i

/-- Settles O3: the header of a command selects its row (`selectsRow_header`), and a header selects one row at most. -/
theorem headerSelectsOneRow : Obligations.HeaderSelectsOneRow := by
  refine ⟨fun h ext i hd j => ⟨selectsRow_unique (selectsRow_of_decode hd), fun ⟨hmatch, hmask⟩ => ?_⟩,
    fun h ext hnone i hd => ?_⟩
  · rw [selectsRow_congr h hmatch hmask]
    exact selectsRow_of_decode hd
  · exact absurd (selectsRow_of_decode hd) (by simp [hnone i])

/-! ## Legal frames -/

theorem clear_of_masked {w m v : Word} (lo len : Nat) (h : w &&& m = v) (hm : field m lo len = BitVec.allOnes len)
    (hv : field v lo len = 0) : field w lo len = 0 :=
  (field_of_masked lo len h hm).trans hv

theorem blocksOfWords_isSome {ws : List Word} (h : ∀ w ∈ ws, w &&& 0xFFFF0000 = 0) :
    ∃ bs, blocksOfWords ws = some bs := by
  induction ws with
  | nil => exact ⟨[], rfl⟩
  | cons w ws ih =>
    obtain ⟨hw, hws⟩ := List.forall_mem_cons.mp h
    obtain ⟨bs, hbs⟩ := ih hws
    have hres : field w 16 16 = 0 := clear_of_masked 16 16 hw (by decide) (by decide)
    exact ⟨Block.ofWord w :: bs, by rw [blocksOfWords, if_pos hres, hbs]⟩

/-- The extension words of a STR_CFG frame whose reserved bits are 0 decode (R133). -/
theorem decodeStrCfg_isSome {h e0 : Word} {ws : List Word} (hop : opcOf h = 0x30)
    (hlegal : extensionLegal h (e0 :: ws) = true) : ∃ i, decodeStrCfg h (e0 :: ws) = some i := by
  rw [extensionLegal, if_pos hop, Bool.and_eq_true_iff, List.all_eq_true] at hlegal
  obtain ⟨he0, hws⟩ := hlegal
  have hres : field e0 8 2 = 0 := clear_of_masked 8 2 (of_decide_eq_true he0) (by decide) (by decide)
  obtain ⟨bs, hbs⟩ := blocksOfWords_isSome fun w hw => of_decide_eq_true (hws w hw)
  exact ⟨_, by rw [decodeStrCfg, if_pos hres, hbs]⟩

/-- The mask of a row covers the reserved field of its header, so that nothing stands in the way of its operands. -/
theorem decodeFields_isSome {h : Word} {ext : List Word} {j : Instr} (hj : selectsRow h j = true)
    (hlen : ext.length + 1 = frameWords h) (hlegal : extensionLegal h ext = true) :
    ∃ i, decodeFields j.opcode h ext = some i := by
  have hop : opcOf h = j.opcode.code := (opcOf_of_selectsRow hj).trans (opcOf_rowMatch j)
  rw [frameWords_eq, hop] at hlen
  have hmask := (selectsRow_iff h j).mp hj
  cases j <;> simp only [Instr.rowMask, Instr.rowMatch] at hmask
  case busCfg => exact ⟨_, if_pos (clear_of_masked 4 4 hmask (by decide) (by decide))⟩
  case busCfgw => exact ⟨_, if_pos (clear_of_masked 4 3 hmask (by decide) (by decide))⟩
  case busDecfg | tmrStop | tmrReset | intDetach =>
    exact ⟨_, if_pos (clear_of_masked 0 16 hmask (by decide) (by decide))⟩
  case tmrCfg => exact ⟨_, if_pos (clear_of_masked 8 8 hmask (by decide) (by decide))⟩
  case tmrStart =>
    cases ext with
    | nil => cases hlen
    | cons e0 _ => exact ⟨_, if_pos (clear_of_masked 1 15 hmask (by decide) (by decide))⟩
  case intAttach => exact ⟨_, if_pos (clear_of_masked 10 6 hmask (by decide) (by decide))⟩
  case strCfg =>
    cases ext with
    | nil => simp [Instr.opcode, Opcode.code] at hlen; omega
    | cons e0 ws => exact decodeStrCfg_isSome hop hlegal
  case strStart | strStop =>
    have hres : field h 18 6 = 0 := clear_of_masked 18 6 hmask (by decide) (by decide)
    cases hflag : flag h 16 <;> simp [Instr.opcode, decodeFields, hres, hflag]
  case strRead => exact ⟨_, rfl⟩
  case getMs | getUs => exact ⟨_, if_pos (clear_of_masked 0 24 hmask (by decide) (by decide))⟩

theorem extensionLegal_encode {i : Instr} (hwf : i.wf = true) : extensionLegal i.header i.extension = true := by
  obtain ⟨hop, _⟩ := frameShape i hwf
  unfold extensionLegal
  rw [hop]
  cases i with
  | strCfg chan bus dev period unit tsEn intEn intPol intPin blocks =>
    have he0 : strCfgWord period unit tsEn intEn intPol intPin &&& 0x300 = 0 := by
      simp only [strCfgWord, BitVec.and_or_distrib_right, place_and]
      simp [place, field]
    have hblock (b : Block) : b.word &&& 0xFFFF0000 = 0 := by
      simp only [Block.word, BitVec.and_or_distrib_right, place_and]
      simp [place, field]
    simpa [Instr.opcode, Opcode.code, Instr.extension] using And.intro he0 fun b _ => hblock b
  | _ => simp [Instr.opcode, Opcode.code]

/-- The legal frames of R138 are those that decode. -/
theorem frame_legal_iff {h : Word} {ext : List Word} (hlen : ext.length + 1 = frameWords h) :
    ((∃ j : Instr, selectsRow h j = true) ∧ extensionLegal h ext = true) ↔ ∃ i, decode (h :: ext) = .ok i := by
  constructor
  · rintro ⟨⟨j, hj⟩, hlegal⟩
    obtain ⟨i, hi⟩ := decodeFields_isSome hj hlen hlegal
    have hop := (opcOf_of_selectsRow hj).trans (opcOf_rowMatch j)
    exact ⟨i, (decode_eq_ok_iff h ext i).mpr ⟨j.opcode, hop, hlen, hi⟩⟩
  · rintro ⟨i, hd⟩
    obtain ⟨hframe, hwf⟩ := encodeInvertsDecode _ i hd
    obtain ⟨rfl, rfl⟩ := List.cons.inj hframe
    exact ⟨⟨i, selectsRow_header i⟩, extensionLegal_encode hwf⟩

/-- The frame of an `OPC` that no row of the table has is one word (R138). -/
theorem frameWords_of_no_row {h : Word} (hnone : ∀ j : Instr, opcOf h ≠ opcOf j.rowMatch) : frameWords h = 1 := by
  have hstart : opcOf h ≠ 0x11 := hnone (.tmrStart 0 false 0)
  have hcfg : opcOf h ≠ 0x30 := hnone (.strCfg 0 (BusRef.ofCode 0) 0 0 .microseconds false false .onChange 0 [])
  rw [frameWords_eq, if_neg hstart, if_neg hcfg]

/-- Settles O4, by `frame_legal_iff`. -/
theorem illegalFrameNotSupported : Obligations.IllegalFrameNotSupported := by
  refine ⟨fun h ext s hlen => ⟨fun hlegal => ?_, fun hillegal => ?_⟩, fun h => frameWords_of_no_row⟩
  · obtain ⟨i, hd⟩ := (frame_legal_iff hlen).mp hlegal
    exact ⟨i, hd, runFrame_legal hd s⟩
  · exact runFrame_illegal (fun i hd => hillegal ((frame_legal_iff hlen).mpr ⟨i, hd⟩)) s

end Sys2Proof.Machine
end

section
/-! SUPPORT. Frames as words of a stream (30_encoding.md R120, R121, R142): where a frame ends, what the command port
accepts of it (00_scope.md R10), and the bytes of its words; and the response frames (R136). -/

namespace Sys2Proof.Machine

/-! ## Where a frame ends -/

theorem splitFrame_whole {h : Word} {ext : List Word} (rest : List Word) (hlen : ext.length + 1 = frameWords h) :
    splitFrame (h :: ext ++ rest) = some (h :: ext, rest) := by
  rw [List.cons_append, splitFrame, if_pos (by simp; omega), ← hlen]
  simp

/-- A frame whose words are not all there is not taken (R121). -/
theorem splitFrame_part {h : Word} {ext : List Word} {n : Nat} (hn : n < frameWords h) :
    splitFrame ((h :: ext).take n) = none := by
  cases n with
  | zero => rfl
  | succ n =>
    rw [List.take_succ_cons, splitFrame, if_neg]
    simp
    omega

/-! ## The command port -/

/-- The port accepts words up to the end of the frame it holds the beginning of (R10, log 15). -/
theorem portAccept_whole {h : Word} {ext : List Word} (rest : List Word) (n : Nat)
    (hlen : ext.length + 1 = frameWords h) :
    portAccept ((h :: ext).take n) ((h :: ext).drop n ++ rest) = h :: ext := by
  unfold portAccept
  rw [← List.append_assoc, List.take_append_drop, splitFrame_whole rest hlen]
  by_cases hn : n < frameWords h
  · rw [splitFrame_part hn]
  · have hall : (h :: ext).take n = h :: ext := List.take_of_length_le (by simp; omega)
    have hsplit := splitFrame_whole [] hlen
    rw [List.append_nil] at hsplit
    rw [hall, hsplit]

/-- While words of the frame are missing the port accepts all that come (R10, log 15). -/
theorem portAccept_part {h : Word} {ext : List Word} {n m : Nat} (hnm : n ≤ m) (hm : m < frameWords h) :
    portAccept ((h :: ext).take n) (((h :: ext).take m).drop n) = (h :: ext).take m := by
  have hjoin : (h :: ext).take n ++ ((h :: ext).take m).drop n = (h :: ext).take m := by
    conv_rhs => rw [← List.take_append_drop n ((h :: ext).take m), List.take_take, Nat.min_eq_left hnm]
  unfold portAccept
  rw [splitFrame_part (Nat.lt_of_le_of_lt hnm hm), hjoin, splitFrame_part hm]

/-- Settles O5, by where a frame ends; the frame of a command is as long as its header says (`frameShape`). -/
theorem framesTakenWhole : Obligations.FramesTakenWhole := by
  refine ⟨frameWords_eq, fun h ext rest hlen => ⟨splitFrame_whole rest hlen, fun n => splitFrame_part,
    fun n => portAccept_whole rest n hlen, fun n m => portAccept_part⟩, fun i rest hwf => ?_⟩
  have hlen : (encode i).length = frameWords i.header := (frameShape i hwf).2
  exact ⟨splitFrame_whole rest hlen, fun n hn => splitFrame_part (hlen ▸ hn)⟩

/-! ## Words on a byte transport -/

theorem field_toNat (w : Word) (lo : Nat) : field w lo 8 = BitVec.ofNat 8 (w.toNat / 2 ^ lo) := by
  rw [← Nat.shiftRight_eq_div_pow]
  rfl

/-- Bits side by side stand at their places one above the other. -/
theorem place_append (x : BitVec a) (y : BitVec b) (lo : Nat) :
    place (x ++ y) lo = place x (lo + b) ||| place y lo := by
  apply BitVec.eq_of_getLsbD_eq
  intro k hk
  by_cases hlo : k < lo
  · have hlob : k < lo + b := by omega
    simp [place, hlo, hlob]
  · by_cases hb : k - lo < b
    · have hlob : k < lo + b := by omega
      simp [place, hk, hlo, hb, hlob, BitVec.getLsbD_append]
    · have hlob : ¬k < lo + b := by omega
      simp [place, hk, hlo, hb, hlob, BitVec.getLsbD_append, Nat.sub_sub, BitVec.getLsbD_of_ge y _ (Nat.not_lt.mp hb)]

theorem wordOfBytes_eq_place (b0 b1 b2 b3 : Byte) :
    wordOfBytes b0 b1 b2 b3 = place b3 24 ||| place b2 16 ||| place b1 8 ||| place b0 0 := by
  have hword : place (wordOfBytes b0 b1 b2 b3) 0 = wordOfBytes b0 b1 b2 b3 := by simp [place]
  rw [← hword, wordOfBytes, place_append, place_append, place_append]

theorem wordOfBytes_field (w : Word) :
    wordOfBytes (field w 0 8) (field w 8 8) (field w 16 8) (field w 24 8) = w := by
  simp [wordOfBytes_eq_place]

theorem wordsOfBytes_flatMap (ws : List Word) : wordsOfBytes (ws.flatMap bytesOfWord) = (ws, []) := by
  induction ws with
  | nil => rfl
  | cons w ws ih =>
    simp only [List.flatMap_cons, bytesOfWord, List.cons_append, List.nil_append, wordsOfBytes, wordOfBytes_field]
    rw [ih]

/-- Settles O6, byte by byte of a word, then word by word of the stream. -/
theorem byteTransportRoundTrip : Obligations.ByteTransportRoundTrip := by
  refine ⟨fun w => ?_, wordsOfBytes_flatMap⟩
  simp [bytesOfWord, field_toNat]

/-! ## Responses -/

/-- Settles O10, by the ways a command can complete (`CommandStep`). -/
theorem commandAnswersOnce : Obligations.CommandAnswersOnce := by
  intro i s
  obtain ⟨t, hexec, hstep⟩ := exec_completes s i
  refine ⟨t, hexec, ?_⟩
  cases hstep with
  | rejected st listed => exact .inl ⟨st, [], .inr listed, fun _ => rfl, rfl⟩
  | accepted e payload effect =>
    refine .inl ⟨.success, payload, .inl rfl, fun hne => absurd rfl hne, ?_⟩
    rw [effect.frame]
    rfl
  | readBegun chf maxRecords isRead => exact .inr ⟨⟨chf, maxRecords, isRead⟩, rfl, rfl⟩

/-- The opcode and the count of a response (R136). -/
theorem responseHead_opc_count (opc code : Byte) (count : BitVec 16) :
    field (responseHead opc code count) 24 8 = opc ∧ field (responseHead opc code count) 0 16 = count := by
  simp (disch := decide) [responseHead, field_or, field_place_same, field_place_disjoint]

/-- Byte j of a word is the j-th of the bytes it is made of (R142). -/
theorem field_wordOfBytes (b0 b1 b2 b3 : Byte) {j : Nat} (hj : j < 4) :
    field (wordOfBytes b0 b1 b2 b3) (8 * j) 8 = [b0, b1, b2, b3].getD j 0 := by
  rw [wordOfBytes_eq_place]
  interval_cases j <;>
    simp (disch := decide) only [field_or, field_place_same, field_place_disjoint, BitVec.or_zero, BitVec.zero_or] <;>
    rfl

theorem packWords_length (bytes : List Byte) : (packWords bytes).length = (bytes.length + 3) / 4 := by
  induction bytes using packWords.induct with
  | case5 b0 b1 b2 b3 bs ih =>
    simp only [packWords, List.length_cons, ih]
    omega
  | _ => simp [packWords]

/-- The first word packs the first four bytes, with 0 for those that are missing. -/
theorem packWords_first {bytes : List Byte} {j : Nat} (hne : bytes ≠ []) (hj : j < 4) :
    field ((packWords bytes).getD 0 0) (8 * j) 8 = bytes.getD j 0 := by
  match bytes with
  | [] => exact absurd rfl hne
  | [b0] | [b0, b1] | [b0, b1, b2] | b0 :: b1 :: b2 :: b3 :: _ =>
    rw [packWords, List.getD_cons_zero, field_wordOfBytes _ _ _ _ hj]
    interval_cases j <;> rfl

/-- Byte k of a record is in word k div 4 at bits 8·(k mod 4) up, and the bytes after the last are 0 (R136). -/
theorem packWords_field (bytes : List Byte) (k : Nat) (hk : k < 4 * (packWords bytes).length) :
    field ((packWords bytes).getD (k / 4) 0) (8 * (k % 4)) 8 = bytes.getD k 0 := by
  induction bytes using packWords.induct generalizing k with
  | case5 b0 b1 b2 b3 bs ih =>
    by_cases hk4 : k < 4
    · rw [Nat.div_eq_of_lt hk4, Nat.mod_eq_of_lt hk4]
      exact packWords_first (List.cons_ne_nil _ _) hk4
    · obtain ⟨m, rfl⟩ := Nat.exists_eq_add_of_le' (Nat.not_lt.mp hk4)
      simp only [packWords, List.length_cons] at hk
      simpa [packWords] using ih m (by omega)
  | case1 => exact absurd hk (Nat.not_lt_zero k)
  | case2 | case3 | case4 =>
    have hk4 : k < 4 := by simpa [packWords] using hk
    rw [Nat.div_eq_of_lt hk4, Nat.mod_eq_of_lt hk4]
    exact packWords_first (List.cons_ne_nil _ _) hk4

/-- Settles O32, by the fields of the head and the bytes of the packed words. -/
theorem responseFrameLayout : Obligations.ResponseFrameLayout := by
  refine ⟨fun opc code count => ?_, fun bytes => ⟨packWords_length bytes, packWords_field bytes⟩⟩
  obtain ⟨hopc, hcount⟩ := responseHead_opc_count opc code count
  exact ⟨hopc, responseHead_status opc code count, hcount⟩

end Sys2Proof.Machine
end

section
/-! SUPPORT. The bus commands (40_bus_commands.md R161 to R164): which buses the tables hold, what an accepted command that
writes one entry of a table leaves and answers, and the checks of each command in their order. -/

namespace Sys2Proof.Machine

/-! ## Buses -/

/-- A valid reference to an I2C bus is an entry of the table (R34, R36). -/
theorem i2c_index_lt {s : State} (hs : s.Shaped) {r : BusRef} (hk : r.kind = .i2c) (hv : busValid s.cfg r = true) :
    r.idx.toNat < s.i2c.length := by
  obtain ⟨_, hlen, _⟩ := hs
  simpa [busValid, hk, hlen] using hv

/-- A valid reference to an SPI bus is an entry of the table (R35, R36). -/
theorem spi_index_lt {s : State} (hs : s.Shaped) {r : BusRef} (hk : r.kind = .spi) (hv : busValid s.cfg r = true) :
    r.idx.toNat < s.spi.length := by
  obtain ⟨_, _, hlen, _⟩ := hs
  simpa [busValid, hk, hlen] using hv

theorem configureBus_i2c {r : BusRef} (hk : r.kind = .i2c) (speed : Byte) (bmode : BitVec 4) (s : State) :
    s.configureBus r speed bmode =
      s.setI2cBus r.idx.toNat { configured := true, speed := speed, mode := bmode } := by
  simp only [State.configureBus, hk]

theorem configureBus_spi {r : BusRef} (hk : r.kind = .spi) (speed : Byte) (bmode : BitVec 4) (s : State) :
    s.configureBus r speed bmode =
      s.setSpiBus r.idx.toNat { configured := true, speed := speed, mode := bmode, width16 := false } := by
  simp only [State.configureBus, hk]

/-- BUS_DECFG clears the flag of an I2C bus; the other fields of the entry are left unsaid (R163, U2). -/
theorem deconfigureBus_i2c {r : BusRef} (hk : r.kind = .i2c) (s : State) :
    ∃ b : I2cBus, b.configured = false ∧ s.deconfigureBus r = (s.setI2cBus r.idx.toNat b).drawFree := by
  simp only [State.deconfigureBus, hk]
  exact ⟨_, rfl, rfl⟩

/-- BUS_DECFG clears the flag of an SPI bus; the other fields of the entry are left unsaid (R163, U2). -/
theorem deconfigureBus_spi {r : BusRef} (hk : r.kind = .spi) (s : State) :
    ∃ b : SpiBus, b.configured = false ∧ s.deconfigureBus r = (s.setSpiBus r.idx.toNat b).drawFree := by
  simp only [State.deconfigureBus, hk]
  exact ⟨_, rfl, rfl⟩

/-- BusInUse (R164): the engine is armed and a valid channel of its mode is on the bus. -/
theorem busInUse_iff (s : State) (r : BusRef) :
    s.busInUse r = true ↔ s.eng.armed = true ∧ ∃ d ∈ s.ch, d.valid = true ∧ d.mode = s.eng.amode ∧ d.bus = r := by
  simp [State.busInUse, mem_matching, and_assoc]

/-! ## Accepted commands -/

/-- An accepted command without a payload appends the one response of `SUCCESS` and `COUNT` 0 (R12, R136, R137). -/
theorem respond_success_rsp {s e : State} (hs : s.Shaped) (h : CommandEffect s e) (opc : Byte) :
    (e.respond opc .success 0 []).rsp = s.rsp ++ [[responseHead opc 0 0]] := by
  obtain ⟨hok, _⟩ := hs
  have hrsp : e.rsp = s.rsp := by rw [h.frame]
  rw [State.respond_rsp, hrsp, h.shape.cfg, success_code s.cfg hok]

/-- A command that writes one I2C bus and succeeds. -/
theorem succeed_setI2cBus {s : State} (hs : s.Shaped) {i : Nat} (hi : i < s.i2c.length) (b : I2cBus) (op : Opcode) :
    ∃ t, succeed op (s.setI2cBus i b) = .next t ∧ t.i2cBus i = b ∧ (∀ j, j ≠ i → t.i2cBus j = s.i2cBus j) ∧
      t.rsp = s.rsp ++ [[responseHead op.code 0 0]] ∧ t = { s with i2c := t.i2c, rsp := t.rsp } :=
  ⟨_, rfl, s.i2cBus_setI2cBus_same i b hi, fun j hj => s.i2cBus_setI2cBus_ne i j b hj,
    respond_success_rsp hs (setI2cBus_effect i b s) op.code, rfl⟩

/-- A command that writes one SPI bus and succeeds. -/
theorem succeed_setSpiBus {s : State} (hs : s.Shaped) {i : Nat} (hi : i < s.spi.length) (b : SpiBus) (op : Opcode) :
    ∃ t, succeed op (s.setSpiBus i b) = .next t ∧ t.spiBus i = b ∧ (∀ j, j ≠ i → t.spiBus j = s.spiBus j) ∧
      t.rsp = s.rsp ++ [[responseHead op.code 0 0]] ∧ t = { s with spi := t.spi, rsp := t.rsp } :=
  ⟨_, rfl, s.spiBus_setSpiBus_same i b hi, fun j hj => s.spiBus_setSpiBus_ne i j b hj,
    respond_success_rsp hs (setSpiBus_effect i b s) op.code, rfl⟩

/-! ## BUS_CFG -/

section

variable {s : State} {bus : BusRef} {speed : Byte} {bmode : BitVec 4}

theorem busCfg_of_invalid (hv : busValid s.cfg bus = false) :
    exec (.busCfg bus speed bmode) s = reject .busCfg (invalidBus bus.kind) s := if_pos hv

theorem busCfg_of_configured (hv : busValid s.cfg bus = true) (hc : s.busConfigured bus = true) :
    exec (.busCfg bus speed bmode) s = reject .busCfg (alreadyConfigured bus.kind) s := by
  simp [exec, execBusCfg, hv, hc]

theorem busCfg_of_reserved_mode (hv : busValid s.cfg bus = true) (hc : s.busConfigured bus = false)
    (hk : bus.kind = .i2c) (hm : 2 < bmode.toNat) :
    exec (.busCfg bus speed bmode) s = reject .busCfg .eI2cConfigFailed s := by
  simp [exec, execBusCfg, hv, hc, hk, hm]

theorem busCfg_accepted (hv : busValid s.cfg bus = true) (hc : s.busConfigured bus = false)
    (hm : ¬(bus.kind = .i2c ∧ 2 < bmode.toNat)) :
    exec (.busCfg bus speed bmode) s = succeed .busCfg (s.configureBus bus speed bmode) := by
  simp only [exec, execBusCfg, hv, hc, if_neg hm, Bool.true_eq_false, Bool.false_eq_true, if_false]

end

/-- Settles O13: each check decides by the equation of its case, and an accepted BUS_CFG writes one entry of the table of
its kind. -/
theorem busCfgConfigures : Obligations.BusCfgConfigures := by
  intro s bus speed bmode hs
  refine ⟨busCfg_of_invalid, busCfg_of_configured, busCfg_of_reserved_mode, fun hv hc hk hm => ?i2c,
    fun hv hc hk => ?spi⟩
  case i2c =>
    rw [busCfg_accepted hv hc fun hbad => absurd hbad.2 (Nat.not_lt.mpr hm), configureBus_i2c hk]
    exact succeed_setI2cBus hs (i2c_index_lt hs hk hv) _ .busCfg
  case spi =>
    rw [busCfg_accepted hv hc fun hbad => by simp [hk] at hbad, configureBus_spi hk]
    exact succeed_setSpiBus hs (spi_index_lt hs hk hv) _ .busCfg

/-! ## BUS_CFGW -/

section

variable {s : State} {bus : BusRef} {speed : Byte} {w16 : Bool} {bmode : BitVec 4}

theorem busCfgw_of_invalid (hv : bus.kind = .i2c ∨ s.cfg.nSpi ≤ bus.idx.toNat) :
    exec (.busCfgw bus speed w16 bmode) s = reject .busCfgw .eSpiInvalidBus s := if_pos hv

theorem busCfgw_of_configured (hk : bus.kind = .spi) (hi : bus.idx.toNat < s.cfg.nSpi)
    (hc : (s.spiBus bus.idx.toNat).configured = true) :
    exec (.busCfgw bus speed w16 bmode) s = reject .busCfgw .eSpiAlreadyConfigured s := by
  simp [exec, execBusCfgw, hk, Nat.not_le.mpr hi, hc]

theorem busCfgw_of_narrow (hk : bus.kind = .spi) (hi : bus.idx.toNat < s.cfg.nSpi)
    (hc : (s.spiBus bus.idx.toNat).configured = false) (hw : w16 = true)
    (hn : s.cfg.spi16Ok[bus.idx.toNat]? = some false) :
    exec (.busCfgw bus speed w16 bmode) s = reject .busCfgw .eSpiNotConfigured s := by
  simp [exec, execBusCfgw, hk, Nat.not_le.mpr hi, hc, hw, hn]

theorem busCfgw_accepted (hk : bus.kind = .spi) (hi : bus.idx.toNat < s.cfg.nSpi)
    (hc : (s.spiBus bus.idx.toNat).configured = false)
    (hw : w16 = false ∨ s.cfg.spi16Ok[bus.idx.toNat]? = some true) :
    exec (.busCfgw bus speed w16 bmode) s =
      succeed .busCfgw
        (s.setSpiBus bus.idx.toNat { configured := true, speed := speed, mode := bmode, width16 := w16 }) := by
  have hwide : ¬(w16 = true ∧ s.cfg.spi16Ok.getD bus.idx.toNat false = false) := by
    rcases hw with hw | hw <;> simp [hw]
  simp only [exec, execBusCfgw, hk, Nat.not_le.mpr hi, hc, if_neg hwide, reduceCtorEq, or_self, Bool.false_eq_true,
    if_false]

end

/-- Settles O14: each check decides by the equation of its case, and an accepted BUS_CFGW writes one SPI bus. -/
theorem busCfgwConfiguresSpi : Obligations.BusCfgwConfiguresSpi := by
  intro s bus speed w16 bmode hs
  refine ⟨busCfgw_of_invalid, busCfgw_of_configured, busCfgw_of_narrow, fun hk hi hc hw => ?_⟩
  have hv : busValid s.cfg bus = true := by simp [busValid, hk, hi]
  rw [busCfgw_accepted hk hi hc hw]
  exact succeed_setSpiBus hs (spi_index_lt hs hk hv) _ .busCfgw

/-! ## BUS_DECFG -/

section

variable {s : State} {bus : BusRef}

theorem busDecfg_of_invalid (hv : busValid s.cfg bus = false) :
    exec (.busDecfg bus) s = reject .busDecfg (invalidBus bus.kind) s := if_pos hv

theorem busDecfg_of_unconfigured (hv : busValid s.cfg bus = true) (hc : s.busConfigured bus = false) :
    exec (.busDecfg bus) s = reject .busDecfg (notConfigured bus.kind) s := by
  simp [exec, execBusDecfg, hv, hc]

theorem busDecfg_of_inUse (hv : busValid s.cfg bus = true) (hc : s.busConfigured bus = true)
    (hu : s.busInUse bus = true) : exec (.busDecfg bus) s = reject .busDecfg .eFailure s := by
  simp [exec, execBusDecfg, hv, hc, hu]

theorem busDecfg_accepted (hv : busValid s.cfg bus = true) (hc : s.busConfigured bus = true)
    (hu : ¬ s.busInUse bus = true) : exec (.busDecfg bus) s = succeed .busDecfg (s.deconfigureBus bus) := by
  simp [exec, execBusDecfg, hv, hc, hu]

end

/-- The flag of the bus is cleared and no other bus is touched, whatever the kind (R163). -/
theorem deconfigureBus_clears {s : State} (hs : s.Shaped) {r : BusRef} (hv : busValid s.cfg r = true) :
    (s.deconfigureBus r).busConfigured r = false ∧
    (∀ j, (r.kind = .i2c ∧ j = r.idx.toNat) ∨ (s.deconfigureBus r).i2cBus j = s.i2cBus j) ∧
    (∀ j, (r.kind = .spi ∧ j = r.idx.toNat) ∨ (s.deconfigureBus r).spiBus j = s.spiBus j) := by
  cases hk : r.kind with
  | i2c =>
    obtain ⟨b, hclear, heq⟩ := deconfigureBus_i2c hk s
    rw [heq]
    refine ⟨?_, fun j => ?_, fun _ => .inr rfl⟩
    · simpa [State.busConfigured, hk, State.i2cBus_setI2cBus_same s _ b (i2c_index_lt hs hk hv)] using hclear
    · exact (eq_or_ne j r.idx.toNat).imp (fun hj => ⟨rfl, hj⟩) (s.i2cBus_setI2cBus_ne _ j b)
  | spi =>
    obtain ⟨b, hclear, heq⟩ := deconfigureBus_spi hk s
    rw [heq]
    refine ⟨?_, fun _ => .inr rfl, fun j => ?_⟩
    · simpa [State.busConfigured, hk, State.spiBus_setSpiBus_same s _ b (spi_index_lt hs hk hv)] using hclear
    · exact (eq_or_ne j r.idx.toNat).imp (fun hj => ⟨rfl, hj⟩) (s.spiBus_setSpiBus_ne _ j b)

/-- Settles O15: each check decides by the equation of its case, with BusInUse as `busInUse_iff` spells it out, and an
accepted BUS_DECFG clears the one flag. -/
theorem busDecfgClearsFlag : Obligations.BusDecfgClearsFlag := by
  intro s bus hs
  simp only [← busInUse_iff]
  refine ⟨busDecfg_of_invalid, busDecfg_of_unconfigured, busDecfg_of_inUse, fun hv hc hu => ?_⟩
  obtain ⟨hflag, hi2c, hspi⟩ := deconfigureBus_clears hs hv
  exact ⟨_, busDecfg_accepted hv hc hu, hflag, hi2c, hspi,
    respond_success_rsp hs (deconfigureBus_effect bus s) 0x03, by rw [deconfigureBus_frame]; rfl⟩

/-! ## The example frames -/

/-- A frame that is the encoding of a well-formed command decodes to it (R121). -/
theorem decode_of_encode {i : Instr} {frame : List Word} (hwf : i.wf = true) (henc : encode i = frame) :
    decode frame = .ok i :=
  henc ▸ decodeInvertsEncode i hwf

/-- Settles O7: each example frame is the encoding of the command the spec gives beside it. -/
theorem exampleFramesDecode : Obligations.ExampleFramesDecode := by
  refine ⟨?_, ?_, ?_, ?_, ?_, ?_, ?_⟩ <;> exact decode_of_encode (by decide) (by decide)

end Sys2Proof.Machine
end

section
/-! SUPPORT. The timer and counter commands (41_timer_commands.md R180 to R185): what the stop of a timer writes, what
an accepted command that writes one timer leaves and answers, and the checks of each command in their order. -/

namespace Sys2Proof.Machine

/-! ## Timers -/

/-- A timer number below N_TIMERS is an entry of the table (R37). -/
theorem timer_index_lt {s : State} (hs : s.Shaped) {i : Nat} (hi : i < s.cfg.nTimers) : i < s.tmr.length := by
  obtain ⟨_, _, _, hlen, _⟩ := hs
  exact hlen.symm ▸ hi

/-- The stop of a timer writes TMR and the count of free values alone (R182). -/
theorem stopTimer_frame (i : Nat) (s : State) :
    s.stopTimer i = { s with tmr := (s.stopTimer i).tmr, free := (s.stopTimer i).free } := by
  rcases stopTimer_cases i s with ⟨_, hst⟩ | ⟨_, hst⟩ <;> rw [hst]
  rfl

theorem stopTimer_of_stopped {i : Nat} {s : State} (hstate : (s.timer i).state = .stopped) : s.stopTimer i = s :=
  if_pos hstate

theorem stopTimer_target {i : Nat} {s : State} (hlt : i < s.tmr.length) :
    ((s.stopTimer i).timer i).target = (s.timer i).target := by
  rcases stopTimer_cases i s with ⟨_, hst⟩ | ⟨_, hst⟩ <;> rw [hst]
  rw [State.timer_drawFree, s.timer_setTimer_same i _ hlt, Timer.halt_target]

theorem stopTimer_ne {i j : Nat} {s : State} (hj : j ≠ i) : (s.stopTimer i).timer j = s.timer j := by
  rcases stopTimer_cases i s with ⟨_, hst⟩ | ⟨_, hst⟩ <;> rw [hst]
  exact s.timer_setTimer_ne i j _ hj

/-- A command that writes one timer and succeeds. -/
theorem succeed_setTimer {s : State} (hs : s.Shaped) {i : Nat} (hi : i < s.cfg.nTimers) (x : Timer) (op : Opcode) :
    ∃ t, succeed op (s.setTimer i x) = .next t ∧ t.timer i = x ∧ (∀ j, j ≠ i → t.timer j = s.timer j) ∧
      t.rsp = s.rsp ++ [[responseHead op.code 0 0]] ∧ t = { s with tmr := t.tmr, rsp := t.rsp } :=
  ⟨_, rfl, s.timer_setTimer_same i x (timer_index_lt hs hi), fun j hj => s.timer_setTimer_ne i j x hj,
    respond_success_rsp hs (setTimer_effect i x s) op.code, rfl⟩

/-! ## TMR_CFG -/

section

variable {s : State} {inst tag : Byte}

theorem tmrCfg_of_invalid (hi : s.cfg.nTimers ≤ inst.toNat) :
    exec (.tmrCfg inst tag) s = reject .tmrCfg .eTimerInvalidInstance s := if_pos hi

theorem tmrCfg_of_running (hi : inst.toNat < s.cfg.nTimers) (hr : (s.timer inst.toNat).state = .running) :
    exec (.tmrCfg inst tag) s = reject .tmrCfg .eTimerInvalidInstance s := by
  simp only [exec, execTmrCfg, Nat.not_le.mpr hi, hr, if_false, if_true]

theorem tmrCfg_accepted (hi : inst.toNat < s.cfg.nTimers) (hr : (s.timer inst.toNat).state ≠ .running) :
    exec (.tmrCfg inst tag) s =
      succeed .tmrCfg
        ((s.setTimer inst.toNat { s.timer inst.toNat with state := .ready, target := .ext tag }).purge
          (.timer inst.toNat)) := by
  simp only [exec, execTmrCfg, Nat.not_le.mpr hi, hr, if_false]

end

/-- Settles O16: each check decides by the equation of its case, and an accepted TMR_CFG writes one timer and purges its
triggers. -/
theorem tmrCfgBindsHandler : Obligations.TmrCfgBindsHandler := by
  intro s inst tag hs
  refine ⟨tmrCfg_of_invalid, tmrCfg_of_running, fun hi hr => ?_⟩
  refine ⟨_, tmrCfg_accepted hi hr, ?self, ?others, ?queue, ?answer, rfl⟩
  case self => exact s.timer_setTimer_same _ _ (timer_index_lt hs hi)
  case others => exact fun j hj => s.timer_setTimer_ne _ j _ hj
  case queue => exact purgeSources_single _ _
  case answer => exact respond_success_rsp hs ((setTimer_effect _ _ s).trans (purge_effect _ _)) 0x10

/-! ## TMR_START -/

section

variable {s : State} {inst : Byte} {oneshot : Bool} {timeout : BitVec 32}

theorem tmrStart_of_invalid (hi : s.cfg.nTimers ≤ inst.toNat) :
    exec (.tmrStart inst oneshot timeout) s = reject .tmrStart .eTimerInvalidInstance s := if_pos hi

/-- Checks 2 and 3 answer one status: a timer that is not READY is RUNNING or STOPPED (R181). -/
theorem tmrStart_of_not_ready (hi : inst.toNat < s.cfg.nTimers) (hr : (s.timer inst.toNat).state ≠ .ready) :
    exec (.tmrStart inst oneshot timeout) s = reject .tmrStart .eTimerInvalidInstance s := by
  cases hstate : (s.timer inst.toNat).state with
  | ready => exact absurd hstate hr
  | running => simp only [exec, execTmrStart, Nat.not_le.mpr hi, hstate, if_false, if_true]
  | stopped => simp only [exec, execTmrStart, Nat.not_le.mpr hi, hstate, reduceCtorEq, if_false, if_true]

theorem tmrStart_of_zero (hi : inst.toNat < s.cfg.nTimers) (hr : (s.timer inst.toNat).state = .ready)
    (hz : timeout = 0) : exec (.tmrStart inst oneshot timeout) s = reject .tmrStart .eTimerInitFailed s := by
  simp only [exec, execTmrStart, Nat.not_le.mpr hi, hr, hz, reduceCtorEq, if_false, if_true]

theorem tmrStart_accepted (hi : inst.toNat < s.cfg.nTimers) (hr : (s.timer inst.toNat).state = .ready)
    (hz : timeout ≠ 0) :
    exec (.tmrStart inst oneshot timeout) s =
      succeed .tmrStart
        (s.setTimer inst.toNat
          { state := .running, target := (s.timer inst.toNat).target, timeout := timeout, cnt := 0,
            oneshot := oneshot }) := by
  simp only [exec, execTmrStart, Nat.not_le.mpr hi, hr, hz, reduceCtorEq, if_false]

end

/-- Settles O17: each check decides by the equation of its case, and an accepted TMR_START writes one timer. -/
theorem tmrStartArmsTimer : Obligations.TmrStartArmsTimer := by
  intro s inst oneshot timeout hs
  refine ⟨tmrStart_of_invalid, tmrStart_of_not_ready, tmrStart_of_zero, fun hi hr hz => ?_⟩
  rw [tmrStart_accepted hi hr hz]
  exact succeed_setTimer hs hi _ .tmrStart

/-! ## TMR_STOP -/

section

variable {s : State} {inst : Byte}

theorem tmrStop_of_invalid (hi : s.cfg.nTimers ≤ inst.toNat) :
    exec (.tmrStop inst) s = reject .tmrStop .eTimerInvalidInstance s := if_pos hi

theorem tmrStop_accepted (hi : inst.toNat < s.cfg.nTimers) :
    exec (.tmrStop inst) s = succeed .tmrStop ((s.stopTimer inst.toNat).purge (.timer inst.toNat)) :=
  if_neg (Nat.not_le.mpr hi)

end

/-- Settles O18: an accepted TMR_STOP is the stop of one timer, then the purge of its triggers. -/
theorem tmrStopDisarmsTimer : Obligations.TmrStopDisarmsTimer := by
  intro s inst hs
  refine ⟨tmrStop_of_invalid, fun hi => ?_⟩
  have hlt := timer_index_lt hs hi
  refine ⟨_, tmrStop_accepted hi, stopTimer_stopped hlt, stopTimer_target hlt, ?again, fun _ hj => stopTimer_ne hj,
    ?queue, ?answer, ?frame⟩
  case again => exact fun hstate => congrArg (·.timer inst.toNat) (stopTimer_of_stopped hstate)
  case queue =>
    rw [State.respond_trigq, State.purge_trigq, stopTimer_trigq]
    exact purgeSources_single _ _
  case answer => exact respond_success_rsp hs ((stopTimer_effect _ s).trans (purge_effect _ _)) 0x12
  case frame =>
    rw [stopTimer_frame]
    rfl

/-! ## TMR_RESET -/

section

variable {s : State} {inst : Byte}

theorem tmrReset_of_invalid (hi : s.cfg.nTimers ≤ inst.toNat) :
    exec (.tmrReset inst) s = reject .tmrReset .eTimerInvalidInstance s := if_pos hi

theorem tmrReset_of_running (hi : inst.toNat < s.cfg.nTimers) (hr : (s.timer inst.toNat).state = .running) :
    exec (.tmrReset inst) s =
      succeed .tmrReset (s.setTimer inst.toNat { s.timer inst.toNat with cnt := 0 }) := by
  simp only [exec, execTmrReset, Nat.not_le.mpr hi, hr, if_false, if_true]

theorem tmrReset_of_idle (hi : inst.toNat < s.cfg.nTimers) (hr : (s.timer inst.toNat).state ≠ .running) :
    exec (.tmrReset inst) s = succeed .tmrReset s := by
  simp only [exec, execTmrReset, Nat.not_le.mpr hi, hr, if_false]

end

/-- Settles O19, by whether the timer runs: one count is written, or the answer is all there is. -/
theorem tmrResetRestartsCount : Obligations.TmrResetRestartsCount := by
  intro s inst hs
  refine ⟨tmrReset_of_invalid, fun hi => ?_⟩
  by_cases hr : (s.timer inst.toNat).state = .running
  · obtain ⟨t, hnext, hself, hothers, hrsp, hframe⟩ :=
      succeed_setTimer hs hi { s.timer inst.toNat with cnt := 0 } .tmrReset
    exact ⟨t, (tmrReset_of_running hi hr).trans hnext, fun _ => hself, fun hidle => absurd hr hidle, hothers, hrsp,
      hframe⟩
  · exact ⟨_, tmrReset_of_idle hi hr, fun hrun => absurd hrun hr, fun _ => rfl, fun _ _ => rfl,
      respond_success_rsp hs (.refl s) 0x13, rfl⟩

/-! ## GET_MS and GET_US -/

/-- A response of `SUCCESS` carries the status code 0 and writes nothing but RSP (R12, R136, R137). -/
theorem respond_success_eq {s : State} (hs : s.Shaped) (opc : Byte) (count : BitVec 16) (payload : List Word) :
    s.respond opc .success count payload = { s with rsp := s.rsp ++ [responseHead opc 0 count :: payload] } := by
  obtain ⟨hok, _⟩ := hs
  rw [State.respond, success_code s.cfg hok]

/-- The millisecond word keeps US div 1000 modulo 2^32 (R184). -/
theorem ms_eq_mod (s : State) : s.ms = BitVec.ofNat 32 (s.us.toNat / 1000 % 2 ^ 32) :=
  BitVec.eq_of_toNat_eq (by simp [State.ms])

/-- Settles O20: the response is the whole effect, and its payload is the millisecond word. -/
theorem getMsAnswersMilliseconds : Obligations.GetMsAnswersMilliseconds := by
  intro s hs
  rw [← ms_eq_mod]
  exact congrArg Host.Outcome.next (respond_success_eq hs 0x40 0 [s.ms])

/-- The low and the high word of a 64-bit value make it up again (R185). -/
theorem toNat_eq_high_low (x : BitVec 64) :
    x.toNat = (x.extractLsb' 32 32).toNat * 2 ^ 32 + (x.extractLsb' 0 32).toNat := by
  have hx := x.isLt
  simp only [BitVec.extractLsb'_toNat, Nat.shiftRight_eq_div_pow]
  omega

/-- Settles O21: the response is the whole effect, and its payload is the two halves of the counter. -/
theorem getUsAnswersCounter : Obligations.GetUsAnswersCounter := by
  intro s hs
  exact ⟨s.us.extractLsb' 0 32, s.us.extractLsb' 32 32,
    congrArg Host.Outcome.next (respond_success_eq hs 0x41 0 _), toNat_eq_high_low s.us⟩

end Sys2Proof.Machine
end

section
/-! SUPPORT. The pin interrupt commands (42_interrupt_commands.md R200, R201): what the removal of a binding writes, and
the checks of each command in their order. -/

namespace Sys2Proof.Machine

/-! ## Bindings -/

/-- A pin number below N_PINS is an entry of the binding table (R40). -/
theorem binding_index_lt {s : State} (hs : s.Shaped) {p : Nat} (hp : p < s.cfg.nPins) : p < s.bind.length := by
  obtain ⟨_, _, _, _, _, hlen, _⟩ := hs
  exact hlen.symm ▸ hp

/-- The removal of a binding writes BIND and the count of free values alone (R201). -/
theorem unbind_frame (p : Nat) (s : State) :
    s.unbind p = { s with bind := (s.unbind p).bind, free := (s.unbind p).free } := by
  rcases unbind_cases p s with ⟨_, hub⟩ | ⟨_, hub⟩ <;> rw [hub]
  rfl

theorem unbind_of_unbound {p : Nat} {s : State} (hfree : (s.binding p).valid = false) : s.unbind p = s :=
  if_neg (Bool.eq_false_iff.mp hfree)

theorem unbind_clears {p : Nat} {s : State} (hlt : p < s.bind.length) : ((s.unbind p).binding p).valid = false := by
  rcases unbind_cases p s with ⟨hfree, hub⟩ | ⟨_, hub⟩ <;> rw [hub]
  · exact hfree
  · rw [State.binding_drawFree, s.binding_setBinding_same p _ hlt, Binding.clear_valid]

theorem unbind_ne {p q : Nat} {s : State} (hq : q ≠ p) : (s.unbind p).binding q = s.binding q := by
  rcases unbind_cases p s with ⟨_, hub⟩ | ⟨_, hub⟩ <;> rw [hub]
  exact s.binding_setBinding_ne p q _ hq

/-! ## INT_ATTACH -/

section

variable {s : State} {pin : Byte} {policy : Policy} {tag : Byte}

/-- The two checks answer one status (R200). -/
theorem intAttach_of_invalid (h : s.cfg.nPins ≤ pin.toNat ∨ policy = .reserved) :
    exec (.intAttach pin policy tag) s = reject .intAttach .eFailure s := by
  rcases h with hp | hpol
  · exact if_pos hp
  · simp only [exec, execIntAttach, hpol, if_true, ite_self]

theorem intAttach_accepted (hp : pin.toNat < s.cfg.nPins) (hpol : policy ≠ .reserved) :
    exec (.intAttach pin policy tag) s =
      succeed .intAttach
        ((s.setBinding pin.toNat { valid := true, policy := policy, target := .ext tag }).purge (.pin pin.toNat)) :=
  (if_neg (Nat.not_le.mpr hp)).trans (if_neg hpol)

end

/-- Settles O22: the checks decide by the equations above, and an accepted INT_ATTACH writes one binding and purges the
triggers of its pin. -/
theorem intAttachReplacesBinding : Obligations.IntAttachReplacesBinding := by
  intro s pin policy tag hs
  refine ⟨intAttach_of_invalid, fun hp hpol => ?_⟩
  refine ⟨_, intAttach_accepted hp hpol, ?self, ?others, ?queue, ?answer, rfl⟩
  case self => exact s.binding_setBinding_same _ _ (binding_index_lt hs hp)
  case others => exact fun q hq => s.binding_setBinding_ne _ q _ hq
  case queue => exact purgeSources_single _ _
  case answer => exact respond_success_rsp hs ((setBinding_effect _ _ s).trans (purge_effect _ _)) 0x20

/-! ## INT_DETACH -/

section

variable {s : State} {pin : Byte}

theorem intDetach_of_invalid (hp : s.cfg.nPins ≤ pin.toNat) :
    exec (.intDetach pin) s = reject .intDetach .eFailure s := if_pos hp

theorem intDetach_accepted (hp : pin.toNat < s.cfg.nPins) :
    exec (.intDetach pin) s = succeed .intDetach ((s.unbind pin.toNat).purge (.pin pin.toNat)) :=
  if_neg (Nat.not_le.mpr hp)

end

/-- Settles O23: an accepted INT_DETACH is the removal of one binding, then the purge of the triggers of its pin. -/
theorem intDetachRemovesBinding : Obligations.IntDetachRemovesBinding := by
  intro s pin hs
  refine ⟨intDetach_of_invalid, fun hp => ?_⟩
  refine ⟨_, intDetach_accepted hp, unbind_clears (binding_index_lt hs hp), ?unbound, fun _ hq => unbind_ne hq,
    ?queue, ?answer, ?frame⟩
  case unbound =>
    intro hfree
    have hsame := unbind_of_unbound hfree
    exact ⟨congrArg (·.binding pin.toNat) hsame, congrArg (·.free) hsame⟩
  case queue =>
    rw [State.respond_trigq, State.purge_trigq, unbind_trigq]
    exact purgeSources_single _ _
  case answer => exact respond_success_rsp hs ((unbind_effect _ s).trans (purge_effect _ _)) 0x21
  case frame =>
    rw [unbind_frame]
    rfl

end Sys2Proof.Machine
end

section
/-! SUPPORT. STR_CFG (43_streaming_commands.md R210): what its checks 4 to 9 read, and the checks in their order. -/

namespace Sys2Proof.Machine

/-! ## The operands of STR_CFG -/

/-- A channel number below N_CHANNELS is an entry of the table (R41). -/
theorem channel_index_lt {s : State} (hs : s.Shaped) {c : Nat} (hc : c < s.cfg.nChannels) : c < s.ch.length := by
  obtain ⟨_, _, _, _, _, _, hlen⟩ := hs
  exact hlen.symm ▸ hc

/-- Check 5 of STR_CFG (R210). -/
theorem blockListBad_iff (p : Params) (bs : List Block) :
    blockListBad p bs = true ↔ bs = [] ∨ p.maxBlocks < bs.length ∨ ∃ b ∈ bs, b.cnt = 0 := by
  simp [blockListBad, or_assoc]

/-- Check 7 of STR_CFG (R124, R210). -/
theorem unitRecognised_eq_false_iff (u : UnitCode) :
    unitRecognised u = false ↔ u = .unrecognised2 ∨ u = .unrecognised3 := by
  cases u <;> simp [unitRecognised]

/-- Check 9 of STR_CFG (R210). -/
theorem pinOperandBad_iff (p : Params) (intEn : Bool) (intPin : Byte) (intPol : Policy) :
    pinOperandBad p intEn intPin intPol = true ↔
      intEn = true ∧ (p.nPins ≤ intPin.toNat ∨ intPol = .reserved) := by
  simp [pinOperandBad]

/-- The stored unit of a recognised one (R210). -/
theorem timeUnit_of_recognised {u : UnitCode} (h : u = .microseconds ∨ u = .milliseconds) :
    timeUnit u = if u = .milliseconds then .milliseconds else .microseconds := by
  rcases h with rfl | rfl <;> rfl

/-! ## STR_CFG -/

section

variable {s : State} {chan : BitVec 4} {bus : BusRef} {dev : Byte} {period : BitVec 16} {unit : UnitCode}
  {tsEn intEn : Bool} {intPol : Policy} {intPin : Byte} {blocks : List Block}

/-- The first two checks answer one status (R210). -/
theorem strCfg_of_unavailable (h : s.eng.armed = true ∨ s.cfg.nChannels ≤ chan.toNat) :
    exec (.strCfg chan bus dev period unit tsEn intEn intPol intPin blocks) s = reject .strCfg .eFailure s := by
  simp only [exec, execStrCfg, ← ite_or]
  exact if_pos h

theorem strCfg_of_invalid (idle : s.eng.armed = false) (hc : chan.toNat < s.cfg.nChannels)
    (hv : busValid s.cfg bus = false) :
    exec (.strCfg chan bus dev period unit tsEn intEn intPol intPin blocks) s =
      reject .strCfg (invalidBus bus.kind) s := by
  simp only [exec, execStrCfg, idle, Nat.not_le.mpr hc, hv, Bool.false_eq_true, if_false, if_true]

/-- Checks 4 to 9 answer one status, so they are one check of the disjunction of what they find (R210). -/
theorem strCfg_of_valid (idle : s.eng.armed = false) (hc : chan.toNat < s.cfg.nChannels)
    (hv : busValid s.cfg bus = true) :
    exec (.strCfg chan bus dev period unit tsEn intEn intPol intPin blocks) s =
      if s.busConfigured bus = false ∨ blockListBad s.cfg blocks = true ∨
          s.cfg.recCap < blockTotal blocks + tsLen tsEn ∨ unitRecognised unit = false ∨
          (intEn = false ∧ period = 0) ∨ pinOperandBad s.cfg intEn intPin intPol = true then
        reject .strCfg (configFailed bus.kind) s
      else
        succeed .strCfg
          (s.setChannel chan.toNat
            { s.channel chan.toNat with
              valid := true, bus := bus, dev := dev, blocks := blocks, period := period, unit := timeUnit unit,
              intEn := intEn, intPin := intPin, intPol := intPol, tsEn := tsEn, active := false, produced := 0 }) := by
  simp only [exec, execStrCfg, idle, Nat.not_le.mpr hc, hv, Bool.true_eq_false, Bool.false_eq_true, if_false, ite_or]

end

/-- Settles O24: the checks decide by the equations above, and an accepted STR_CFG writes one channel. -/
theorem strCfgStoresDescriptor : Obligations.StrCfgStoresDescriptor := by
  intro s chan bus dev period unit tsEn intEn intPol intPin blocks hs
  refine ⟨strCfg_of_unavailable, strCfg_of_invalid, fun idle hc hv hbad => ?bad,
    fun idle hc hv hconf hsome hfew hpos hfits hunit hperiod hpin => ?stored⟩
  case bad =>
    rw [strCfg_of_valid idle hc hv]
    refine if_pos ?_
    rw [blockListBad_iff, unitRecognised_eq_false_iff, pinOperandBad_iff]
    simpa only [or_assoc, tsLen, tsBytes] using hbad
  case stored =>
    rw [strCfg_of_valid idle hc hv, if_neg, timeUnit_of_recognised hunit]
    case hnc =>
      rw [blockListBad_iff, unitRecognised_eq_false_iff, pinOperandBad_iff]
      rintro (hbad | (hbad | hbad | ⟨b, hb, hbad⟩) | hbad | hbad | ⟨hi, hbad⟩ | ⟨hi, hbad⟩)
      · exact absurd (hconf.symm.trans hbad) nofun
      · exact hsome hbad
      · exact absurd hfew (Nat.not_le.mpr hbad)
      · exact hpos b hb hbad
      · exact absurd hfits (Nat.not_le.mpr hbad)
      · rcases hunit with rfl | rfl <;> simp at hbad
      · exact hperiod hi hbad
      · exact hbad.elim (Nat.not_le.mpr (hpin hi).1) (hpin hi).2
    exact ⟨_, rfl, s.channel_setChannel_same _ _ (channel_index_lt hs hc),
      fun c hne => s.channel_setChannel_ne _ c _ hne, respond_success_rsp hs (setChannel_effect _ _ s) 0x30, rfl⟩

end Sys2Proof.Machine
end

section
/-! SUPPORT. STR_START (43_streaming_commands.md R211 to R214): its checks in their order, the base period and the merged
policies, and what an accepted start writes. -/

namespace Sys2Proof.Machine

/-! ## Checks -/

theorem matching_isEmpty_iff (s : State) (m : EngineMode) :
    (s.matching m).isEmpty = true ↔ ∀ d ∈ s.ch, ¬(d.valid = true ∧ d.mode = m) := by
  rw [List.isEmpty_iff, State.matching, List.filter_eq_nil_iff]
  simp only [matchesMode_iff]

theorem matching_not_isEmpty {s : State} {m : EngineMode} (h : ∃ d ∈ s.ch, d.valid = true ∧ d.mode = m) :
    ¬ (s.matching m).isEmpty = true := by
  obtain ⟨d, hd, hm⟩ := h
  exact fun hempty => (matching_isEmpty_iff s m).mp hempty d hd hm

/-- Check 3 of STR_START finds the lowest-numbered matching channel whose bus is not configured (R212). -/
theorem firstUnconfigured_of_lowest {s : State} {m : EngineMode} {c : Nat} (hc : c < s.ch.length)
    (hv : (s.channel c).valid = true) (hm : (s.channel c).mode = m)
    (hbus : s.busConfigured (s.channel c).bus = false)
    (hlowest : ∀ b, b < c → (s.channel b).valid = true → (s.channel b).mode = m →
      s.busConfigured (s.channel b).bus = true) :
    s.firstUnconfigured m = some (s.channel c) := by
  have hget : ∀ b, (hb : b < s.ch.length) → s.ch[b] = s.channel b := fun b hb => by simp [State.channel, hb]
  rw [State.firstUnconfigured, State.matching, List.find?_filter, List.find?_eq_some_iff_getElem]
  refine ⟨by simp [(matchesMode_iff m _).mpr ⟨hv, hm⟩, hbus], c, hc, hget c hc, fun b hb => ?_⟩
  rw [hget b (hb.trans hc)]
  by_cases hmatch : (s.channel b).matchesMode m = true
  · obtain ⟨hvb, hmb⟩ := (matchesMode_iff m _).mp hmatch
    simp [hlowest b hb hvb hmb]
  · simp [hmatch]

/-- Check 3 of STR_START finds none when every matching channel's bus is configured (R212). -/
theorem firstUnconfigured_of_configured {s : State} {m : EngineMode}
    (h : ∀ d ∈ s.ch, d.valid = true → d.mode = m → s.busConfigured d.bus = true) : s.firstUnconfigured m = none := by
  refine List.find?_eq_none.mpr fun d hd => ?_
  obtain ⟨hmem, hv, hm⟩ := (mem_matching s m d).mp hd
  simp [h d hmem hv hm]

section

variable {s : State} {mode : EngineMode} {count : BitVec 16}

/-- The first two checks answer one status (R212). -/
theorem strStart_of_unavailable
    (h : s.eng.armed = true ∨ ∀ d ∈ s.ch, ¬(d.valid = true ∧ d.mode = mode)) :
    exec (.strStart mode count) s = reject .strStartStop .eFailure s := by
  simp only [exec, execStrStart, ← ite_or, matching_isEmpty_iff]
  exact if_pos h

theorem strStart_of_unconfigured (idle : s.eng.armed = false)
    (hsome : ∃ d ∈ s.ch, d.valid = true ∧ d.mode = mode) {d : Channel} (hfirst : s.firstUnconfigured mode = some d) :
    exec (.strStart mode count) s = reject .strStartStop (notConfigured d.bus.kind) s := by
  simp only [exec, execStrStart, idle, matching_not_isEmpty hsome, hfirst, Bool.false_eq_true, if_false]

theorem strStart_of_running (idle : s.eng.armed = false)
    (hsome : ∃ d ∈ s.ch, d.valid = true ∧ d.mode = .polling) (hnone : s.firstUnconfigured .polling = none)
    (hrun : (s.timer s.cfg.streamTimer).state = .running) :
    exec (.strStart .polling count) s = reject .strStartStop .eTimerInvalidInstance s := by
  simp only [exec, execStrStart, idle, matching_not_isEmpty hsome, hnone, hrun, Bool.false_eq_true, if_false, if_true]

theorem strStart_polling_accepted (idle : s.eng.armed = false)
    (hsome : ∃ d ∈ s.ch, d.valid = true ∧ d.mode = .polling) (hnone : s.firstUnconfigured .polling = none)
    (hstill : (s.timer s.cfg.streamTimer).state ≠ .running) :
    exec (.strStart .polling count) s = succeed .strStartStop (s.startPolling count) := by
  simp only [exec, execStrStart, idle, matching_not_isEmpty hsome, hnone, hstill, Bool.false_eq_true, if_false]

theorem strStart_interrupt_accepted (idle : s.eng.armed = false)
    (hsome : ∃ d ∈ s.ch, d.valid = true ∧ d.mode = .interrupt) (hnone : s.firstUnconfigured .interrupt = none) :
    exec (.strStart .interrupt count) s = succeed .strStartStop (s.startInterrupt count) := by
  simp only [exec, execStrStart, idle, matching_not_isEmpty hsome, hnone, Bool.false_eq_true, if_false]

end

/-- Settles O25: each check decides by the equation of its case, and the third finds the lowest-numbered channel. -/
theorem strStartRejections : Obligations.StrStartRejections := by
  intro s mode count
  refine ⟨strStart_of_unavailable, fun c idle hc hv hm hbus hlowest => ?unconfigured,
    fun idle hsome hbuses hmode hrun => ?running⟩
  case unconfigured =>
    exact strStart_of_unconfigured idle ⟨s.channel c, channel_mem s c hv, hv, hm⟩
      (firstUnconfigured_of_lowest hc hv hm hbus hlowest)
  case running =>
    subst hmode
    exact strStart_of_running idle hsome (firstUnconfigured_of_configured hbuses) hrun

/-! ## POLLING -/

theorem foldl_gcd_lt (m : List Channel) {g : Nat} (hg : g < 2 ^ 32) :
    m.foldl (fun g d => Nat.gcd g d.periodUs) g < 2 ^ 32 := by
  induction m generalizing g with
  | nil => exact hg
  | cons d m ih =>
    refine ih (?_ : Nat.gcd g d.periodUs < 2 ^ 32)
    rcases Nat.eq_zero_or_pos g with rfl | hpos
    · rw [Nat.gcd_zero_left]
      exact periodUs_lt d
    · exact Nat.lt_of_le_of_lt (Nat.gcd_le_left _ hpos) hg

theorem dvd_foldl_gcd {m : List Channel} {g k : Nat} (hg : k ∣ g) (hm : ∀ d ∈ m, k ∣ d.periodUs) :
    k ∣ m.foldl (fun g d => Nat.gcd g d.periodUs) g := by
  induction m generalizing g with
  | nil => exact hg
  | cons d m ih =>
    obtain ⟨hd, htail⟩ := List.forall_mem_cons.mp hm
    exact ih (Nat.dvd_gcd hg hd) htail

/-- The base period is the greatest of the common divisors: every one divides it (R213). -/
theorem dvd_basePeriod {m : List Channel} {k : Nat} (h : ∀ d ∈ m, k ∣ d.periodUs) : k ∣ basePeriod m :=
  dvd_foldl_gcd (Nat.dvd_zero k) h

/-- The base period fits the timeout of a timer (R15(c)), whatever the periods are. -/
theorem basePeriod_toNat (m : List Channel) : (BitVec.ofNat 32 (basePeriod m)).toNat = basePeriod m := by
  rw [BitVec.toNat_ofNat]
  exact Nat.mod_eq_of_lt (foldl_gcd_lt m (by decide))

/-- A divider of the base period gives the channel its own period (R213). -/
theorem divider_mul {base : Nat} {d : Channel} (h : base ∣ d.periodUs) :
    (BitVec.ofNat 32 (d.periodUs / base)).toNat * base = d.periodUs := by
  have hfits : d.periodUs / base < 2 ^ 32 := Nat.lt_of_le_of_lt (Nat.div_le_self _ _) (periodUs_lt d)
  rw [BitVec.toNat_ofNat, Nat.mod_eq_of_lt hfits]
  exact Nat.div_mul_cancel h

/-- A valid channel of a mode is one of the matching channels (R44). -/
theorem channel_mem_matching {s : State} {m : EngineMode} {c : Nat} (hv : (s.channel c).valid = true)
    (hm : (s.channel c).mode = m) : s.channel c ∈ s.matching m :=
  (mem_matching s m _).mpr ⟨channel_mem s c hv, hv, hm⟩

/-- The matching channels are those of the numbers whose channel is valid and of the mode (R44). -/
theorem forall_mem_matching {s : State} {m : EngineMode} {P : Channel → Prop}
    (h : ∀ c, (s.channel c).valid = true → (s.channel c).mode = m → P (s.channel c)) : ∀ d ∈ s.matching m, P d := by
  intro d hd
  obtain ⟨hmem, hv, hm⟩ := (mem_matching s m d).mp hd
  obtain ⟨c, _, rfl⟩ := channel_of_mem s d hmem
  exact h c hv hm

theorem startPolling_channel (cap : BitVec 16) (s : State) (c : Nat) :
    (s.startPolling cap).channel c = (s.channel c).startPolling (basePeriod (s.matching .polling)) :=
  channel_map s _ rfl c

theorem Channel.startPolling_of_match {base : Nat} {d : Channel} (hv : d.valid = true) (hm : d.mode = .polling) :
    d.startPolling base =
      { d with div := BitVec.ofNat 32 (d.periodUs / base), divcnt := 0, active := true, produced := 0 } :=
  if_pos ((matchesMode_iff _ d).mpr ⟨hv, hm⟩)

theorem Channel.startPolling_of_other {base : Nat} {d : Channel} (h : ¬(d.valid = true ∧ d.mode = .polling)) :
    d.startPolling base = d := if_neg fun hmatch => h ((matchesMode_iff _ d).mp hmatch)

/-- STREAM_TIMER is an entry of the table (R5, R6, R37). -/
theorem streamTimer_lt {s : State} (hs : s.Shaped) : s.cfg.streamTimer < s.tmr.length := by
  have hshaped := hs
  obtain ⟨⟨_, _, _, hstream, _⟩, _⟩ := hs
  exact timer_index_lt hshaped hstream

theorem startPolling_streamTimer {s : State} (hs : s.Shaped) (cap : BitVec 16) :
    (s.startPolling cap).timer s.cfg.streamTimer =
      { state := .running, target := .stream, timeout := BitVec.ofNat 32 (basePeriod (s.matching .polling)), cnt := 0,
        oneshot := false } :=
  s.timer_setTimer_same _ _ (streamTimer_lt hs)

theorem startPolling_timeout {s : State} (hs : s.Shaped) (cap : BitVec 16) :
    ((s.startPolling cap).timer s.cfg.streamTimer).timeout.toNat = basePeriod (s.matching .polling) := by
  rw [startPolling_streamTimer hs]
  exact basePeriod_toNat _

/-- Settles O26: the timer runs at the base period, which is the greatest common divisor of the periods, and a divider is
the quotient of a period by it. -/
theorem strStartArmsPolling : Obligations.StrStartArmsPolling := by
  intro s count hs idle hsome hbuses hstill
  have hdvd : ∀ c, (s.channel c).valid = true → (s.channel c).mode = .polling →
      basePeriod (s.matching .polling) ∣ (s.channel c).periodUs :=
    fun c hv hm => basePeriod_dvd (channel_mem_matching hv hm)
  refine ⟨(s.startPolling count).respond Opcode.strStartStop.code .success 0 [],
    strStart_polling_accepted idle hsome (firstUnconfigured_of_configured hbuses) hstill, rfl, ?timer, ?divides,
    ?greatest, fun j hj => s.timer_setTimer_ne _ j _ hj, ?matching, ?others, purgeSources_single _ _,
    respond_success_rsp hs (startPolling_effect count s) 0x31, rfl⟩
  all_goals simp only [State.timer_respond, State.channel_respond, startPolling_channel, startPolling_timeout hs]
  case timer => rw [startPolling_streamTimer hs]
  case divides => exact hdvd
  case greatest => exact fun k hk => dvd_basePeriod (forall_mem_matching hk)
  case matching =>
    intro c hv hm
    rw [Channel.startPolling_of_match hv hm]
    exact ⟨rfl, divider_mul (hdvd c hv hm)⟩
  case others => exact fun c hother => Channel.startPolling_of_other hother

/-! ## INTERRUPT -/

/-- The policy of a pin whose channels agree (R214). -/
theorem mergedPolicy_of_agree {m : List Channel} {p : Nat} {policy : Policy} (hsome : ∃ d ∈ m, d.intPin.toNat = p)
    (hall : ∀ d ∈ m, d.intPin.toNat = p → d.intPol = policy) : mergedPolicy m p = policy := by
  have hon : ∀ d ∈ m.filter (fun d => decide (d.intPin.toNat = p)), d.intPol = policy := fun d hd => by
    obtain ⟨hmem, hp⟩ := List.mem_filter.mp hd
    exact hall d hmem (of_decide_eq_true hp)
  obtain ⟨d, hd, hp⟩ := hsome
  have hmem : d ∈ m.filter (fun d => decide (d.intPin.toNat = p)) := List.mem_filter.mpr ⟨hd, decide_eq_true hp⟩
  unfold mergedPolicy
  cases hf : m.filter (fun d => decide (d.intPin.toNat = p)) with
  | nil => exact absurd (hf ▸ hmem) List.not_mem_nil
  | cons x xs =>
    rw [hf] at hon
    obtain ⟨hx, hxs⟩ := List.forall_mem_cons.mp hon
    have hagree : xs.all (fun e => decide (e.intPol = x.intPol)) = true :=
      List.all_eq_true.mpr fun e he => decide_eq_true ((hxs e he).trans hx.symm)
    simp only [hagree, if_true]
    exact hx

/-- The policy of a pin two of whose channels differ (R214). -/
theorem mergedPolicy_of_differ {m : List Channel} {p : Nat} {d e : Channel} (hd : d ∈ m) (hdp : d.intPin.toNat = p)
    (he : e ∈ m) (hep : e.intPin.toNat = p) (hne : d.intPol ≠ e.intPol) : mergedPolicy m p = .onChange := by
  have hon : ∀ x ∈ m, x.intPin.toNat = p → x ∈ m.filter (fun d => decide (d.intPin.toNat = p)) :=
    fun x hx hp => List.mem_filter.mpr ⟨hx, decide_eq_true hp⟩
  have hd := hon d hd hdp
  have he := hon e he hep
  unfold mergedPolicy
  cases hf : m.filter (fun d => decide (d.intPin.toNat = p)) with
  | nil => rfl
  | cons x xs =>
    rw [hf] at hd he
    have hdiffer : ¬ xs.all (fun e => decide (e.intPol = x.intPol)) = true := fun hall => by
      have hsame : ∀ y ∈ x :: xs, y.intPol = x.intPol :=
        List.forall_mem_cons.mpr ⟨rfl, fun y hy => of_decide_eq_true (List.all_eq_true.mp hall y hy)⟩
      exact hne ((hsame d hd).trans (hsame e he).symm)
    exact if_neg hdiffer

theorem startInterrupt_channel (cap : BitVec 16) (s : State) (c : Nat) :
    (s.startInterrupt cap).channel c = (s.channel c).startInterrupt :=
  channel_map s _ rfl c

theorem Channel.startInterrupt_of_match {d : Channel} (hv : d.valid = true) (hm : d.mode = .interrupt) :
    d.startInterrupt = { d with active := true, produced := 0 } := if_pos ((matchesMode_iff _ d).mpr ⟨hv, hm⟩)

theorem Channel.startInterrupt_of_other {d : Channel} (h : ¬(d.valid = true ∧ d.mode = .interrupt)) :
    d.startInterrupt = d := if_neg fun hmatch => h ((matchesMode_iff _ d).mp hmatch)

/-- A pin of a matching channel is bound to the engine with its merged policy (R212). -/
theorem startInterrupt_binding_of_pin {s : State} (cap : BitVec 16) {p : Nat} (hp : p < s.bind.length)
    (hpin : ∃ d ∈ s.ch, d.valid = true ∧ d.mode = .interrupt ∧ d.intPin.toNat = p) :
    (s.startInterrupt cap).binding p =
      { valid := true, policy := mergedPolicy (s.matching .interrupt) p, target := .stream } := by
  have hc := (pins_contains s p).mpr hpin
  simp only [State.startInterrupt, State.binding, List.getD_eq_getElem?_getD, List.getElem?_mapIdx,
    List.getElem?_eq_getElem hp, Option.map_some, Option.getD_some, hc, if_true]

theorem startInterrupt_binding_of_other {s : State} (cap : BitVec 16) {p : Nat}
    (hother : ∀ d ∈ s.ch, d.valid = true → d.mode = .interrupt → d.intPin.toNat ≠ p) :
    (s.startInterrupt cap).binding p = s.binding p := by
  by_cases hp : p < s.bind.length
  · refine (startInterrupt_binding cap hp).resolve_right fun ⟨hc, _⟩ => ?_
    obtain ⟨d, hd, hv, hm, hpin⟩ := (pins_contains s p).mp hc
    exact hother d hd hv hm hpin
  · simp [State.startInterrupt, State.binding, hp]

/-- The purge of the pins of the matching channels (R212, R216, R288). -/
theorem purgeSources_pins (s : State) (q : List Trigger) :
    purgeSources ((pinsOf (s.matching .interrupt)).map .pin) q = q.filter (fun e => decide
      (¬∃ d ∈ s.ch, d.valid = true ∧ d.mode = .interrupt ∧ e.src = .pin d.intPin.toNat)) := by
  refine List.filter_congr fun e _ => ?_
  rw [Bool.eq_iff_iff]
  simp [pinsOf, mem_matching, and_assoc, eq_comm (a := e.src)]

/-- Settles O27: a pin of matching channels is bound with the policy they agree on or ON_CHANGE, by the two lemmas on the
merged policy. -/
theorem strStartArmsInterrupt : Obligations.StrStartArmsInterrupt := by
  intro s count hs idle hsome hbuses
  refine ⟨(s.startInterrupt count).respond Opcode.strStartStop.code .success 0 [],
    strStart_interrupt_accepted idle hsome (firstUnconfigured_of_configured hbuses), rfl, ?agree, ?differ,
    fun p hother => startInterrupt_binding_of_other count hother, ?matching, ?others, purgeSources_pins s s.trigq,
    respond_success_rsp hs (startInterrupt_effect count s) 0x31, rfl⟩
  all_goals simp only [State.binding_respond, State.channel_respond, startInterrupt_channel]
  case agree =>
    intro p hp policy hpin hall
    rw [startInterrupt_binding_of_pin count (binding_index_lt hs hp) hpin]
    obtain ⟨d, hd, hv, hm, hdp⟩ := hpin
    rw [mergedPolicy_of_agree ⟨d, (mem_matching s _ d).mpr ⟨hd, hv, hm⟩, hdp⟩ fun e he hep => ?same]
    case same =>
      obtain ⟨hmem, hve, hme⟩ := (mem_matching s _ e).mp he
      exact hall e hmem hve hme hep
  case differ =>
    intro p hp d hd e he hvd hmd hdp hve hme hep hne
    rw [startInterrupt_binding_of_pin count (binding_index_lt hs hp) ⟨d, hd, hvd, hmd, hdp⟩,
      mergedPolicy_of_differ ((mem_matching s _ d).mpr ⟨hd, hvd, hmd⟩) hdp
        ((mem_matching s _ e).mpr ⟨he, hve, hme⟩) hep hne]
  case matching => exact fun c hv hm => Channel.startInterrupt_of_match hv hm
  case others => exact fun c hother => Channel.startInterrupt_of_other hother

end Sys2Proof.Machine
end

section
/-! SUPPORT. STR_STOP (43_streaming_commands.md R215, R216): the stop procedure by the mode of the engine. -/

namespace Sys2Proof.Machine

theorem disarmTrigger_of_polling {s : State} (hmode : s.eng.amode = .polling) :
    s.disarmTrigger = (s.stopTimer s.cfg.streamTimer).purge (.timer s.cfg.streamTimer) := by
  simp only [State.disarmTrigger, hmode]

/-- The stop of an engine in POLLING mode writes TMR, TRIGQ and the count of free values alone (R216). -/
theorem disarmTrigger_bind_of_polling {s : State} (hmode : s.eng.amode = .polling) : s.disarmTrigger.bind = s.bind := by
  rw [disarmTrigger_of_polling hmode, stopTimer_frame]
  rfl

theorem disarmTrigger_trigq_of_polling {s : State} (hmode : s.eng.amode = .polling) :
    s.disarmTrigger.trigq = s.trigq.filter (fun e => decide (e.src ≠ .timer s.cfg.streamTimer)) := by
  rw [disarmTrigger_of_polling hmode, State.purge_trigq, stopTimer_trigq, purgeSources_single]

/-- The stop of an engine in INTERRUPT mode leaves the timers alone (R216). -/
theorem disarmTrigger_tmr_of_interrupt {s : State} (hmode : s.eng.amode = .interrupt) :
    s.disarmTrigger.tmr = s.tmr := by
  simp only [State.disarmTrigger, hmode]

theorem disarmTrigger_trigq_of_interrupt {s : State} (hmode : s.eng.amode = .interrupt) :
    s.disarmTrigger.trigq = s.trigq.filter (fun e => decide
      (¬∃ d ∈ s.ch, d.valid = true ∧ d.mode = .interrupt ∧ e.src = .pin d.intPin.toNat)) := by
  simp only [State.disarmTrigger, hmode]
  exact purgeSources_pins s s.trigq

/-- A pin of a matching channel is bound to nothing after the stop (R216). -/
theorem disarmTrigger_unbinds {s : State} (hmode : s.eng.amode = .interrupt) {p : Nat}
    (hpin : ∃ d ∈ s.ch, d.valid = true ∧ d.mode = .interrupt ∧ d.intPin.toNat = p) :
    (s.disarmTrigger.binding p).valid = false := by
  rw [disarmTrigger_binding hmode]
  split_ifs with hbound
  · exact Binding.clear_valid s.free p
  · exact Bool.eq_false_iff.mpr fun hv => hbound ⟨(pins_contains s p).mpr hpin, hv⟩

theorem disarmTrigger_binding_of_other {s : State} (hmode : s.eng.amode = .interrupt) {p : Nat}
    (hother : ∀ d ∈ s.ch, d.valid = true → d.mode = .interrupt → d.intPin.toNat ≠ p) :
    s.disarmTrigger.binding p = s.binding p := by
  rw [disarmTrigger_binding hmode, if_neg]
  rintro ⟨hc, _⟩
  obtain ⟨d, hd, hv, hm, hpin⟩ := (pins_contains s p).mp hc
  exact hother d hd hv hm hpin

section

variable {s : State} {mode : EngineMode} {count : BitVec 16}

theorem strStop_of_idle (idle : s.eng.armed = false) :
    exec (.strStop mode count) s = succeed .strStartStop s := if_neg (Bool.eq_false_iff.mp idle)

theorem strStop_of_armed (harmed : s.eng.armed = true) :
    exec (.strStop mode count) s = succeed .strStartStop (stopProcedure s) := if_pos harmed

end

/-- Settles O28: with the engine armed, STR_STOP is the stop procedure, whose first part the lemmas above give by the
mode. -/
theorem strStopDisarms : Obligations.StrStopDisarms := by
  intro s mode count hs
  have hrsp := respond_success_rsp hs (stopProcedure_effect s) 0x31
  refine ⟨fun idle => ?idle, fun harmed hmode => ?polling, fun harmed hmode => ?interrupt⟩
  case idle =>
    exact (strStop_of_idle idle).trans (congrArg Host.Outcome.next (respond_success_eq hs 0x31 0 []))
  case polling =>
    have hlt := streamTimer_lt hs
    have htimer : ∀ i, s.disarmTrigger.timer i = (s.stopTimer s.cfg.streamTimer).timer i := fun i => by
      rw [disarmTrigger_of_polling hmode, State.timer_purge]
    refine ⟨_, strStop_of_armed harmed, (congrArg Timer.state (htimer _)).trans (stopTimer_stopped hlt),
      (congrArg Timer.target (htimer _)).trans (stopTimer_target hlt), fun j hj => (htimer j).trans (stopTimer_ne hj),
      disarmTrigger_trigq_of_polling hmode, rfl, rfl, hrsp, ?_⟩
    rw [stopProcedure_frame, disarmTrigger_bind_of_polling hmode]
    rfl
  case interrupt =>
    refine ⟨_, strStop_of_armed harmed, fun d hd hv hm _ => disarmTrigger_unbinds hmode ⟨d, hd, hv, hm, rfl⟩,
      fun p hother => disarmTrigger_binding_of_other hmode hother, disarmTrigger_trigq_of_interrupt hmode, rfl, rfl,
      hrsp, ?_⟩
    rw [stopProcedure_frame, disarmTrigger_tmr_of_interrupt hmode]
    rfl

end Sys2Proof.Machine
end

section
/-! SUPPORT. STR_READ (43_streaming_commands.md R217, R218): its first step, and the foreground's steps on a read in
progress. -/

namespace Sys2Proof.Machine

/-! ## RdBegin -/

section

variable {s : State} {chf : Byte} {maxRecords : BitVec 16}

theorem strRead_of_invalid (hall : chf ≠ 0xFF) (hc : s.cfg.nChannels ≤ chf.toNat) :
    exec (.strRead chf maxRecords) s = reject .strRead .eFailure s := if_pos ⟨hall, hc⟩

theorem strRead_begins (h : chf = 0xFF ∨ chf.toNat < s.cfg.nChannels) :
    exec (.strRead chf maxRecords) s =
      .next (s.setRead { busy := true, filter := chf, left := maxRecords, count := 0, out := [] }) :=
  if_neg fun ⟨hall, hc⟩ => h.elim hall (Nat.not_lt.mpr hc)

end

/-- Settles O29: the one check of RdBegin, and the read it begins. -/
theorem strReadBegins : Obligations.StrReadBegins :=
  fun _ _ _ => ⟨strRead_of_invalid, strRead_begins⟩

/-! ## RdPop -/

/-- While a read is in progress a host step is a step of the read, and the command port takes nothing (R10, U17). -/
theorem agentStep_host_busy {s : State} (hb : s.rd.busy = true) (words : List Word) :
    agentStep (.host words) s = if s.rd.left = 0 then rdEnd s else rdPop s := by
  change foregroundStep (s.acceptWords words) = _
  rw [acceptWords_busy words s hb, foregroundStep, if_pos hb]

/-- PopOne answers on a ring that meets its invariants (R47, R88). -/
theorem popOne_answers {p : Params} {r : Ring} (h : r.Ok p) (filter : Byte) :
    ∃ out r', popOne p.bufCap filter r = .ok (out, r') := by
  obtain ⟨q, hrep, hunread⟩ := (ringOk_iff p r).mp h
  obtain ⟨r', hpop, _⟩ := hrep.popOne hunread filter
  exact ⟨_, r', hpop⟩

theorem rdPop_of_popOne {s : State} {out : Option (List Byte)} {r : Ring}
    (h : popOne s.cfg.bufCap s.rd.filter s.ring = .ok (out, r)) :
    rdPop s = .next ((s.setRing r).setRead (s.rd.popped out)) := by
  simp only [rdPop, h]

/-- Settles O30, by whether PopOne finds a record. -/
theorem readPopsOneRecord : Obligations.ReadPopsOneRecord := by
  intro s words _ hring hb hleft
  obtain ⟨out, r, hpop⟩ := popOne_answers hring s.rd.filter
  refine ⟨_, ((agentStep_host_busy hb words).trans (if_neg hleft)).trans (rdPop_of_popOne hpop), ?_, rfl, rfl⟩
  cases out with
  | none => exact .inl ⟨hpop, rfl⟩
  | some rec => exact .inr ⟨rec, hpop, rfl⟩

/-! ## RdEnd -/

/-- One placed flag (R54): the word has that bit and no other. -/
theorem getLsbD_place_ofBool (b : Bool) {i : Nat} (hi : i < 32) (k : Nat) :
    (place (BitVec.ofBool b) i).getLsbD k = (decide (k = i) && b) := by
  by_cases hk : k = i
  · subst hk
    simpa [flag] using flag_place_ofBool b k hi
  · have hout : i + 1 ≤ k ∨ k < i := by omega
    simpa [flag, hk] using flag_place_disjoint (BitVec.ofBool b) i k hout

/-- Bit 0 of the flags word is OVF, bit 1 is TRIG_OVERRUN, the others are 0 (R136, R217). -/
theorem getLsbD_readFlags (ovf trigOverrun : Bool) (k : Nat) :
    (readFlags ovf trigOverrun).getLsbD k = ((decide (k = 0) && ovf) || (decide (k = 1) && trigOverrun)) := by
  rw [readFlags, BitVec.getLsbD_or, getLsbD_place_ofBool ovf (by decide), getLsbD_place_ofBool trigOverrun (by decide)]

/-- What RdEnd writes and answers (R217, R218). -/
theorem rdEnd_eq {s : State} (hs : s.Shaped) :
    rdEnd s = .next { s with
      rsp := s.rsp ++ [responseHead 0x32 0 s.rd.count :: s.readPayload]
      ring := { s.ring with ovf := false }
      rd := { s.rd with busy := false } } := by
  have hshaped : ((s.setRing { s.ring with ovf := false }).setRead { s.rd with busy := false }).Shaped := hs
  exact congrArg Host.Outcome.next (respond_success_eq hshaped 0x32 s.rd.count s.readPayload)

/-- Settles O31: RdEnd as `rdEnd_eq` gives it, with the flags bit by bit; a rejection is its response alone. -/
theorem readEndReportsOverflow : Obligations.ReadEndReportsOverflow := by
  refine ⟨fun s words hs hb hleft => ?answered, fun s t chf maxRecords hall hc hexec => ?rejected⟩
  case answered =>
    exact ⟨_, _, ((agentStep_host_busy hb words).trans (if_pos hleft)).trans (rdEnd_eq hs), rfl,
      getLsbD_readFlags s.ring.ovf s.trigOverrun, rfl, rfl⟩
  case rejected =>
    cases (strRead_of_invalid hall hc).symm.trans hexec
    exact ⟨rfl, rfl⟩

end Sys2Proof.Machine
end

section
/-! SUPPORT. The fetch of a sample and the record made of it (44_tick_sequencer.md R253 to R255): the bytes the bus target
delivers, what the reads leave in BUSLOG, and the bytes of the record. -/

namespace Sys2Proof.Machine

/-! ## The fetch -/

/-- `ds` is what the reads of a block list deliver, block by block from the first on, up to a Fail if there is one
(R253). -/
inductive Delivered : List Block → List (List Byte) → Prop where
  | done : Delivered [] []
  | failed (b : Block) (bs : List Block) : Delivered (b :: bs) []
  | read {b : Block} {bs : List Block} {d : List Byte} {ds : List (List Byte)} (length : d.length = b.cnt.toNat)
      (rest : Delivered bs ds) : Delivered (b :: bs) (d :: ds)

/-- The BUSLOG entries of the reads that deliver `ds`: the first block without bytes is the one that fails (R91, R253). -/
def fetchLog (bus : BusRef) (dev : Byte) : List Block → List (List Byte) → List BusRd
  | [], _ => []
  | b :: _, [] => [{ bus := bus, dev := dev, reg := b.reg, n := b.cnt.toNat, result := .fail }]
  | b :: bs, d :: ds =>
    { bus := bus, dev := dev, reg := b.reg, n := b.cnt.toNat, result := .ok d } :: fetchLog bus dev bs ds

theorem blockTotal_cons (b : Block) (bs : List Block) : blockTotal (b :: bs) = b.cnt.toNat + blockTotal bs := by
  simp [blockTotal]

/-- After a Fail nothing is read, and every further byte is 0 (R253, R254). -/
theorem fetchBlocks_after_fail (bus : BusRef) (dev : Byte) (bs : List Block) (s : State) :
    fetchBlocks bus dev bs true s = { data := List.replicate (blockTotal bs) 0, err := true, state := s } := by
  induction bs with
  | nil => rfl
  | cons b bs ih => simp [fetchBlocks, ih, blockTotal_cons]

theorem busRead_busLog {bus : BusRef} {dev reg : Byte} {n : Nat} {s s' : State} {a : BusAnswer}
    (h : busRead bus dev reg n s = (a, s')) :
    s'.busLog = s.busLog ++ [{ bus := bus, dev := dev, reg := reg, n := n, result := a }] := by
  have hframe := congrArg State.busLog (busRead_frame bus dev reg n s)
  rwa [h] at hframe

/-- What the fetch of a block list does (R253): it reads the blocks in order up to the first Fail, and gathers the bytes
delivered, with zeros for the blocks that delivered none. -/
theorem fetchBlocks_delivered (bus : BusRef) (dev : Byte) (bs : List Block) (s : State) :
    ∃ ds, Delivered bs ds ∧
      (fetchBlocks bus dev bs false s).data = ds.flatten ++ List.replicate (blockTotal (bs.drop ds.length)) 0 ∧
      (fetchBlocks bus dev bs false s).err = decide (ds.length < bs.length) ∧
      (fetchBlocks bus dev bs false s).state.busLog = s.busLog ++ fetchLog bus dev bs ds := by
  induction bs generalizing s with
  | nil => exact ⟨[], .done, rfl, rfl, (List.append_nil _).symm⟩
  | cons b bs ih =>
    simp only [fetchBlocks]
    split
    · next bytes s' hread =>
      obtain ⟨ds, hds, hdata, herr, hlog⟩ := ih s'
      have hlen : bytes.length = b.cnt.toNat := busRead_length bus dev b.reg b.cnt.toNat s bytes (by rw [hread])
      refine ⟨bytes :: ds, .read hlen hds, ?_, ?_, ?_⟩
      · simp [hdata]
      · simp [herr]
      · simp [hlog, busRead_busLog hread, fetchLog]
    · next s' hread =>
      rw [fetchBlocks_after_fail]
      refine ⟨[], .failed b bs, ?_, ?_, ?_⟩
      · simp [blockTotal_cons]
      · simp
      · exact busRead_busLog hread

section

variable {bs : List Block} {ds : List (List Byte)}

theorem Delivered.length_le (h : Delivered bs ds) : ds.length ≤ bs.length := by
  induction h with
  | done => exact le_refl _
  | failed b bs => exact Nat.zero_le _
  | read _ _ ih => exact Nat.succ_le_succ ih

theorem Delivered.length_getElem? (h : Delivered bs ds) {k : Nat} {b : Block} {d : List Byte} (hb : bs[k]? = some b)
    (hd : ds[k]? = some d) : d.length = b.cnt.toNat := by
  induction h generalizing k with
  | done => cases hb
  | failed => cases hd
  | read hlen _ ih =>
    cases k with
    | zero =>
      cases hb
      cases hd
      exact hlen
    | succ k => exact ih hb hd

/-- The bytes delivered and the bytes of the blocks that delivered none make up the whole length (R253). -/
theorem Delivered.total (h : Delivered bs ds) :
    blockTotal bs = ds.flatten.length + blockTotal (bs.drop ds.length) := by
  induction h with
  | done => rfl
  | failed b bs => simp
  | read hlen _ ih => simp [blockTotal_cons, ih, hlen, Nat.add_assoc]

/-! ## The entries in BUSLOG -/

variable (bus : BusRef) (dev : Byte)

/-- The entries are those of the blocks delivered, then that of the block that failed. -/
theorem fetchLog_eq (h : Delivered bs ds) :
    fetchLog bus dev bs ds =
      List.zipWith (fun b d => ({ bus := bus, dev := dev, reg := b.reg, n := b.cnt.toNat, result := .ok d } : BusRd))
        (bs.take ds.length) ds ++
      ((bs.drop ds.length).take 1).map (fun b =>
        { bus := bus, dev := dev, reg := b.reg, n := b.cnt.toNat, result := .fail }) := by
  induction h with
  | done => rfl
  | failed b bs => rfl
  | read _ _ ih => simp [fetchLog, ih]

theorem fetchLog_bytes (h : Delivered bs ds) :
    (fetchLog bus dev bs ds).flatMap (fun e => answerBytes e.result) = ds.flatten := by
  induction h with
  | done => rfl
  | failed b bs => rfl
  | read _ _ ih =>
    rw [fetchLog, List.flatMap_cons, ih]
    rfl

theorem fetchLog_any_fail (h : Delivered bs ds) :
    ((fetchLog bus dev bs ds).any fun e => decide (e.result = .fail)) = decide (ds.length < bs.length) := by
  induction h with
  | done => rfl
  | failed b bs => simp [fetchLog]
  | read _ _ ih => simp [fetchLog, ih]

theorem fetchLog_requests (h : Delivered bs ds) :
    (fetchLog bus dev bs ds).map (fun e => (e.bus, e.dev, e.reg, e.n)) =
      (bs.take (fetchLog bus dev bs ds).length).map (fun b => (bus, dev, b.reg, b.cnt.toNat)) := by
  induction h with
  | done => rfl
  | failed b bs => rfl
  | read _ _ ih => simp [fetchLog, ih]

theorem fetchLog_ok_length (h : Delivered bs ds) :
    ∀ e ∈ fetchLog bus dev bs ds, e.result = .fail ∨ (answerBytes e.result).length = e.n := by
  induction h with
  | done => exact nofun
  | failed b bs => simp [fetchLog]
  | read hlen _ ih => simpa [fetchLog, answerBytes, hlen] using ih

theorem fetchLog_dropLast (h : Delivered bs ds) :
    ∀ e ∈ (fetchLog bus dev bs ds).dropLast, e.result ≠ .fail := by
  induction h with
  | done => exact nofun
  | failed b bs => exact nofun
  | @read b bs d ds _ _ ih =>
    simp only [fetchLog]
    cases hrest : fetchLog bus dev bs ds with
    | nil => exact nofun
    | cons x l =>
      rw [hrest] at ih
      simpa using ih

/-- The reads reach the last block, unless the last of them failed. -/
theorem fetchLog_reaches (h : Delivered bs ds) :
    (fetchLog bus dev bs ds).length = bs.length ∨
      ((fetchLog bus dev bs ds).length < bs.length ∧
        (fetchLog bus dev bs ds).getLast?.map BusRd.result = some .fail) := by
  induction h with
  | done => exact .inl rfl
  | failed b bs => cases bs <;> simp [fetchLog]
  | read _ _ ih =>
    rcases ih with hall | ⟨hlt, hfail⟩
    · exact .inl (congrArg Nat.succ hall)
    · obtain ⟨e, he, hres⟩ := Option.map_eq_some_iff.mp hfail
      refine .inr ⟨Nat.succ_lt_succ hlt, ?_⟩
      simp [fetchLog, List.getLast?_cons, he, hres]

end

/-- What the fetch of a channel leaves in BUSLOG (R253, R254). -/
theorem fetchLogged_fetchLog {d : Channel} {ds : List (List Byte)} (h : Delivered d.blocks ds) :
    fetchLogged d (fetchLog d.bus d.dev d.blocks ds) :=
  ⟨fetchLog_requests _ _ h, fetchLog_ok_length _ _ h, fetchLog_dropLast _ _ h, fetchLog_reaches _ _ h⟩

/-- Settles O37, with the blocks delivered that `fetchBlocks_delivered` gives. -/
theorem fetchReadsBlocksInOrder : Obligations.FetchReadsBlocksInOrder := by
  intro bus dev blocks s
  obtain ⟨ds, hds, hdata, herr, hlog⟩ := fetchBlocks_delivered bus dev blocks s
  refine ⟨fetchBlocks_length bus dev blocks false s, fetchBlocks_frame bus dev blocks false s, ds.length, ds, rfl,
    hds.length_le, fun k _ b hb d hd => hds.length_getElem? hb hd, hdata, herr, ?_⟩
  rw [hlog, fetchLog_eq bus dev hds, List.append_assoc]

/-! ## The record -/

/-- The k-th byte of a number, the least significant first (R81). -/
theorem leBytes_getElem? {k n i : Nat} (h : i < k) : (leBytes k n)[i]? = some (BitVec.ofNat 8 (n / 256 ^ i)) := by
  induction k generalizing n i with
  | zero => exact absurd h (Nat.not_lt_zero i)
  | succ k ih =>
    cases i with
    | zero => simp [leBytes]
    | succ i =>
      rw [leBytes, List.getElem?_cons_succ, ih (Nat.lt_of_succ_lt_succ h), Nat.div_div_eq_div_mul, ← Nat.pow_succ']

/-- The k-th byte of a timestamp in a record (R81, R255). -/
theorem le64_getD (ts : BitVec 64) {k : Nat} (h : k < 8) : (le64 ts).getD k 0 = ts.extractLsb' (8 * k) 8 := by
  have hpow : 256 ^ k = 2 ^ (8 * k) := (Nat.pow_mul 2 8 k).symm
  rw [List.getD_eq_getElem?_getD, le64, leBytes_getElem? h, hpow]
  refine BitVec.eq_of_toNat_eq ?_
  simp [BitVec.extractLsb'_toNat, Nat.shiftRight_eq_div_pow]

theorem stamp_length (tsEn : Bool) (ts : BitVec 64) : (if tsEn then le64 ts else []).length = tsLen tsEn := by
  cases tsEn
  · rfl
  · exact leBytes_length _ _

/-- The bits of FLAGS (R82, R255): ERR in bit 0, TS in bit 1, the others 0. -/
theorem recordFlags_getLsbD (tsEn err : Bool) (k : Nat) :
    (recordFlags tsEn err).getLsbD k = ((decide (k = 0) && err) || (decide (k = 1) && tsEn)) := by
  by_cases hk : k < 8
  · revert tsEn err k
    decide
  · rw [BitVec.getLsbD_of_ge _ k (Nat.not_lt.mp hk)]
    have h0 : k ≠ 0 := by omega
    have h1 : k ≠ 1 := by omega
    simp [h0, h1]

theorem formatRecord_length (c : Nat) (tsEn err : Bool) (data : List Byte) (ts : BitVec 64) :
    (formatRecord c tsEn err data ts).length = 3 + data.length + tsLen tsEn := by
  simp only [formatRecord, List.length_cons, recordPayload_length]
  omega

/-- The bytes of a formatted record (R255, R82). -/
theorem formatRecord_bytes {c : Nat} {tsEn : Bool} {data : List Byte} (err : Bool) (ts : BitVec 64) (hc : c < 16)
    (hlen : data.length + tsLen tsEn ≤ 255) :
    ∃ tag flags len, formatRecord c tsEn err data ts = tag :: flags :: len :: (data ++ if tsEn then le64 ts else []) ∧
      tag.toNat = c ∧ len.toNat = data.length + tsLen tsEn ∧
      ∀ k, flags.getLsbD k = ((decide (k = 0) && err) || (decide (k = 1) && tsEn)) := by
  refine ⟨_, _, _, rfl, ?_, ?_, recordFlags_getLsbD tsEn err⟩
  · exact Nat.mod_eq_of_lt (by omega)
  · rw [recordPayload_length]
    exact Nat.mod_eq_of_lt (by omega)

/-- Settles O38: `formatRecord_bytes`, with the bytes of the timestamp that `le64_getD` gives. -/
theorem recordLayout : Obligations.RecordLayout := by
  intro c tsEn err data ts hc hlen
  obtain ⟨tag, flags, len, hrec, htag, hlength, hflags⟩ := formatRecord_bytes err ts hc hlen
  refine ⟨tag, flags, len, _, hrec, htag, hflags, hlength, stamp_length tsEn ts, fun k hk => ?_⟩
  rw [stamp_length] at hk
  cases tsEn with
  | false => exact absurd hk (Nat.not_lt_zero k)
  | true => exact le64_getD ts hk

/-- The record is the one R255 makes of what the fetch left in BUSLOG. -/
theorem recordOf_formatRecord {c : Nat} {d : Channel} {ds : List (List Byte)} (hds : Delivered d.blocks ds)
    (hc : c < 16) (hlen : blockTotal d.blocks + tsLen d.tsEn ≤ 255) (ts : BitVec 64) :
    recordOf c d ts (fetchLog d.bus d.dev d.blocks ds)
      (formatRecord c d.tsEn (decide (ds.length < d.blocks.length))
        (ds.flatten ++ List.replicate (blockTotal (d.blocks.drop ds.length)) 0) ts) := by
  have htotal := hds.total
  have hdata : (ds.flatten ++ List.replicate (blockTotal (d.blocks.drop ds.length)) (0 : Byte)).length =
      blockTotal d.blocks := by
    rw [List.length_append, List.length_replicate, htotal]
  obtain ⟨tag, flags, len, hrec, htag, hlength, hflags⟩ :=
    formatRecord_bytes (decide (ds.length < d.blocks.length)) ts hc (hdata.symm ▸ hlen)
  refine ⟨tag, flags, len, ?_, htag, hdata ▸ hlength, ?_⟩
  · rw [hrec, fetchLog_bytes _ _ hds, Nat.sub_eq_of_eq_add' htotal]
    rfl
  · rwa [fetchLog_any_fail _ _ hds]

end Sys2Proof.Machine
end

section
/-! SUPPORT. The due set of a trigger (44_tick_sequencer.md R251, R252), Count and AutoStop (R256, R257), and what a tick does
to the channels and the engine (R250). -/

namespace Sys2Proof.Machine

/-! ## The due set -/

theorem mem_channelsWith (s : State) (f : Channel → Bool) (c : Nat) :
    c ∈ s.channelsWith f ↔ c < s.cfg.nChannels ∧ f (s.channel c) = true := by
  simp [State.channelsWith]

theorem channelsWith_pairwise (s : State) (f : Channel → Bool) : (s.channelsWith f).Pairwise (· < ·) :=
  List.pairwise_lt_range.filter _

/-- The due channels stand in ascending order (R251, R252). -/
theorem dueSet_pairwise {e : Trigger} {s s1 : State} {due : List Nat} (h : dueSet e s = .ok (due, s1)) :
    due.Pairwise (· < ·) := by
  unfold dueSet at h
  split at h
  · split at h <;> cases h
    exact channelsWith_pairwise s _
  · cases h
    exact channelsWith_pairwise s _
  · cases h
  · cases h

theorem dueSet_of_fire {s : State} {e : Trigger} (hmode : s.eng.amode = .polling)
    (hsrc : e.src = .timer s.cfg.streamTimer) :
    dueSet e s = .ok (s.channelsWith Channel.dueOnFire, { s with ch := s.ch.map Channel.countFire }) := by
  simp only [dueSet, hmode, hsrc, if_true]

theorem dueSet_of_edge {s : State} {e : Trigger} {p : Nat} (hmode : s.eng.amode = .interrupt) (hsrc : e.src = .pin p) :
    dueSet e s = .ok (s.channelsWith (Channel.dueOnEdge p e.val), s) := by
  simp only [dueSet, hmode, hsrc]

theorem counting_iff (d : Channel) :
    d.counting = true ↔ d.valid = true ∧ d.intEn = false ∧ d.active = true := by
  simp [Channel.counting, and_assoc]

theorem dueOnFire_iff (d : Channel) :
    d.dueOnFire = true ↔ d.valid = true ∧ d.intEn = false ∧ d.active = true ∧ d.divcnt + 1 = d.div := by
  simp [Channel.dueOnFire, counting_iff, and_assoc]

/-- When an edge qualifies for a policy that is not the reserved one (R202). -/
theorem qualifies_iff {policy : Policy} (h : policy ≠ .reserved) (val : Bool) :
    qualifies policy val = true ↔
      policy = .onChange ∨ (policy = .risingEdge ∧ val = true) ∨ (policy = .fallingEdge ∧ val = false) := by
  cases policy with
  | onChange => simp [qualifies]
  | risingEdge => simp [qualifies]
  | fallingEdge => simp [qualifies]
  | reserved => exact absurd rfl h

theorem dueOnEdge_iff (p : Nat) (val : Bool) (d : Channel) :
    d.dueOnEdge p val = true ↔ d.valid = true ∧ d.intEn = true ∧ d.active = true ∧ d.intPin.toNat = p ∧
      qualifies d.intPol val = true := by
  simp [Channel.dueOnEdge, and_assoc]

/-- A fire writes `divcnt` alone (R251). -/
theorem countFire_of_counting {d : Channel} (h : d.counting = true) :
    d.countFire = { d with divcnt := if d.divcnt + 1 = d.div then 0 else d.divcnt + 1 } := if_pos h

theorem countFire_of_not_counting {d : Channel} (h : ¬d.counting = true) : d.countFire = d := if_neg h

theorem countFire_divcnt (d : Channel) : ∃ n, d.countFire = { d with divcnt := n } := by
  by_cases h : d.counting = true
  · exact ⟨_, countFire_of_counting h⟩
  · exact ⟨_, countFire_of_not_counting h⟩

/-- The channels after a fire (R251). -/
theorem fireCounted_channel (s : State) (c : Nat) :
    State.channel { s with ch := s.ch.map Channel.countFire } c = (s.channel c).countFire :=
  channel_map s Channel.countFire rfl c

theorem channel_lt_of_valid {s : State} (hs : s.Shaped) {c : Nat} (hv : (s.channel c).valid = true) :
    c < s.cfg.nChannels := by
  obtain ⟨_, _, _, _, _, _, hlen⟩ := hs
  by_contra hc
  have hreset : s.channel c = Channel.reset := by simp [State.channel, show s.ch.length ≤ c by omega]
  rw [hreset] at hv
  cases hv

/-- Settles O39: the due channels are those whose divider completes, and `countFire` is what a fire does to a channel. -/
theorem dueSetPolling : Obligations.DueSetPolling := by
  intro s e hs hmode hsrc
  have hmem := mem_channelsWith s Channel.dueOnFire
  simp only [dueOnFire_iff] at hmem
  refine ⟨_, _, dueSet_of_fire hmode hsrc, channelsWith_pairwise s _, hmem, fun c hv hint ha => ?counted,
    fun c hother => ?other, rfl⟩
  case counted =>
    have hdue : c ∈ s.channelsWith Channel.dueOnFire ↔ (s.channel c).divcnt + 1 = (s.channel c).div := by
      simp only [hmem, hv, hint, ha, channel_lt_of_valid hs hv, true_and]
    rw [fireCounted_channel, countFire_of_counting ((counting_iff _).mpr ⟨hv, hint, ha⟩)]
    simp only [hdue]
  case other =>
    rw [fireCounted_channel, countFire_of_not_counting (mt (counting_iff _).mp hother)]

/-- Settles O40: the descriptor invariant shuts out the reserved policy, so `qualifies` is R202's. -/
theorem dueSetInterrupt : Obligations.DueSetInterrupt := by
  intro s e p hd _ hmode hsrc
  refine ⟨_, dueSet_of_edge hmode hsrc, channelsWith_pairwise s _, fun c => ?_⟩
  rw [mem_channelsWith, dueOnEdge_iff]
  refine and_congr_right fun _ => and_congr_right fun hv => and_congr_right fun hint => and_congr_right fun _ =>
    and_congr_right fun _ => qualifies_iff ?_ e.val
  obtain ⟨_, _, _, _, _, _, hpin⟩ := hd _ (channel_mem s c hv) hv
  exact (hpin hint).2

/-! ## Count -/

/-- `Count(c)` on a channel (R256): one more record, and inactive when a cap is reached. -/
theorem counted_eq (cap : BitVec 16) (d : Channel) :
    d.counted cap = { d with
      produced := d.produced + 1
      active := d.active && !decide (cap ≠ 0 ∧ d.produced + 1 = cap) } := by
  unfold Channel.counted
  split
  · next h => simp only [decide_eq_true h, Bool.not_true, Bool.and_false]
  · next h => simp only [decide_eq_false h, Bool.not_false, Bool.and_true]

theorem count_channel_same {s : State} {c : Nat} (hc : c < s.ch.length) :
    (s.count c).channel c = (s.channel c).counted s.eng.cap := s.channel_setChannel_same c _ hc

theorem count_channel_ne {s : State} {c k : Nat} (hk : k ≠ c) : (s.count c).channel k = s.channel k :=
  s.channel_setChannel_ne c k _ hk

/-! ## AutoStop -/

/-- AutoStop's condition (R257): there is a cap, and every channel of the armed mode has reached it. -/
def State.Finished (s : State) : Prop :=
  s.eng.cap ≠ 0 ∧ ∀ c, c < s.cfg.nChannels → (s.channel c).valid = true → (s.channel c).mode = s.eng.amode →
    (s.channel c).active = false

theorem matching_inactive_iff {s : State} (hs : s.Shaped) (m : EngineMode) :
    (s.matching m).any Channel.active = false ↔ ∀ c, c < s.cfg.nChannels → (s.channel c).valid = true →
      (s.channel c).mode = m → (s.channel c).active = false := by
  rw [List.any_eq_false]
  constructor
  · intro h c _ hv hm
    exact Bool.eq_false_iff.mpr (h _ (channel_mem_matching hv hm))
  · intro h
    exact forall_mem_matching fun c hv hm => Bool.eq_false_iff.mp (h c (channel_lt_of_valid hs hv) hv hm)

theorem autoStop_of_finished {s : State} (hs : s.Shaped) (h : s.Finished) : autoStop s = stopProcedure s := by
  obtain ⟨hcap, hinactive⟩ := h
  exact if_pos ⟨hcap, (matching_inactive_iff hs _).mpr hinactive⟩

theorem autoStop_of_not_finished {s : State} (hs : s.Shaped) (h : ¬s.Finished) : autoStop s = s :=
  if_neg fun ⟨hcap, hinactive⟩ => h ⟨hcap, (matching_inactive_iff hs _).mp hinactive⟩

/-- What AutoStop can do (R257). -/
theorem autoStop_cases (s : State) : autoStop s = s ∨ (s.eng.cap ≠ 0 ∧ autoStop s = stopProcedure s) := by
  unfold autoStop
  split
  · next h => exact .inr ⟨h.1, rfl⟩
  · exact .inl rfl

/-- Settles O41: `counted_eq` with its sum as a number, and the two cases of AutoStop. -/
theorem countThenAutoStop : Obligations.CountThenAutoStop := by
  refine ⟨fun s c hs hc => ⟨?count, fun j hj => count_channel_ne hj, rfl⟩, fun s hs =>
    ⟨fun hcap hinactive => autoStop_of_finished hs ⟨hcap, hinactive⟩, fun h => ?goesOn⟩⟩
  case count =>
    have hsum : BitVec.ofNat 16 ((s.channel c).produced.toNat + 1) = (s.channel c).produced + 1 :=
      BitVec.eq_of_toNat_eq (by simp)
    have hreached : (s.eng.cap.toNat ≠ 0 ∧ ((s.channel c).produced.toNat + 1) % 2 ^ 16 = s.eng.cap.toNat) ↔
        (s.eng.cap ≠ 0 ∧ (s.channel c).produced + 1 = s.eng.cap) := by
      simp [BitVec.toNat_eq]
    rw [count_channel_same (channel_index_lt hs hc), counted_eq, hsum]
    simp only [hreached]
  case goesOn =>
    refine autoStop_of_not_finished hs fun ⟨hcap, hinactive⟩ => ?_
    obtain hzero | ⟨c, hc, hv, hm, ha⟩ := h
    · exact hcap hzero
    · exact absurd ((hinactive c hc hv hm).symm.trans ha) nofun

/-! ## A tick -/

/-- Serving a channel samples it, pushes the record and counts it (R250). -/
theorem serveChannel_eq_ok {ts : BitVec 64} {c : Nat} {s t : State} (h : serveChannel ts c s = .ok t) :
    ∃ r, push s.cfg.bufCap (sample c ts s).1 s.ring = .ok r ∧ t = ((sample c ts s).2.setRing r).count c := by
  unfold serveChannel at h
  split at h <;> cases h
  next r hpush => exact ⟨r, hpush, rfl⟩

/-- `t` is `s` up to what the loop of a tick can write: the channels, the ring, BUSLOG and the answers used up (R250,
R259). -/
def ServeFrame (s t : State) : Prop :=
  t = { s with ch := t.ch, ring := t.ring, busLog := t.busLog, busScript := t.busScript, free := t.free }

theorem ServeFrame.refl (s : State) : ServeFrame s s := rfl

theorem ServeFrame.trans {s t u : State} (hst : ServeFrame s t) (htu : ServeFrame t u) : ServeFrame s u := by
  unfold ServeFrame at *
  rw [hst] at htu
  exact htu

theorem sample_frame (c : Nat) (ts : BitVec 64) (s : State) :
    (sample c ts s).2 = { s with
      busLog := (sample c ts s).2.busLog, busScript := (sample c ts s).2.busScript, free := (sample c ts s).2.free } := by
  unfold sample
  simp only
  conv_lhs => rw [fetchBlocks_frame]

theorem serveChannel_frame {ts : BitVec 64} {c : Nat} {s t : State} (h : serveChannel ts c s = .ok t) :
    ServeFrame s t := by
  obtain ⟨r, _, rfl⟩ := serveChannel_eq_ok h
  unfold ServeFrame
  rw [sample_frame]
  rfl

/-- An induction over the loop of a tick (R250). -/
theorem serveChannels_induction {ts : BitVec 64} {P : State → State → Prop} (refl : ∀ s, P s s)
    (trans : ∀ {s t u}, P s t → P t u → P s u) (serve : ∀ {c s t}, serveChannel ts c s = .ok t → P s t) {cs : List Nat}
    {s t : State} (h : serveChannels ts cs s = .ok t) : P s t := by
  induction cs generalizing s with
  | nil =>
    cases h
    exact refl _
  | cons c cs ih =>
    unfold serveChannels at h
    split at h
    · cases h
    · next s' hserve => exact trans (serve hserve) (ih h)

theorem serveChannels_frame {ts : BitVec 64} {cs : List Nat} {s t : State} (h : serveChannels ts cs s = .ok t) :
    ServeFrame s t :=
  serveChannels_induction ServeFrame.refl ServeFrame.trans serveChannel_frame h

theorem serveChannel_descriptors {ts : BitVec 64} {c : Nat} {s t : State} (h : serveChannel ts c s = .ok t) :
    SameDescriptors s t := by
  obtain ⟨r, _, rfl⟩ := serveChannel_eq_ok h
  rw [sample_frame]
  exact count_sameDescriptors _ _

theorem serveChannels_descriptors {ts : BitVec 64} {cs : List Nat} {s t : State} (h : serveChannels ts cs s = .ok t) :
    SameDescriptors s t :=
  serveChannels_induction SameDescriptors.refl SameDescriptors.trans serveChannel_descriptors h

theorem serveChannel_channel {ts : BitVec 64} {c : Nat} {s t : State} (h : serveChannel ts c s = .ok t)
    (hc : c < s.ch.length) (k : Nat) :
    t.channel k = if k = c then (s.channel k).counted s.eng.cap else s.channel k := by
  obtain ⟨r, _, rfl⟩ := serveChannel_eq_ok h
  rw [sample_frame]
  split
  · next hk =>
    subst hk
    exact count_channel_same hc
  · next hk => exact count_channel_ne hk

/-- The loop of a tick counts one record for each due channel (R250, R256). -/
theorem serveChannels_channel {ts : BitVec 64} {cs : List Nat} {s t : State} (h : serveChannels ts cs s = .ok t)
    (hcs : ∀ c ∈ cs, c < s.ch.length) (hnodup : cs.Nodup) (k : Nat) :
    t.channel k = if k ∈ cs then (s.channel k).counted s.eng.cap else s.channel k := by
  induction cs generalizing s with
  | nil =>
    cases h
    simp
  | cons c cs ih =>
    unfold serveChannels at h
    split at h
    · cases h
    · next s' hserve =>
      obtain ⟨hnew, hrest⟩ := List.nodup_cons.mp hnodup
      have hlen : s'.ch.length = s.ch.length := (serveChannel_sameShape hserve).ch
      have heng : s'.eng = s.eng := by rw [serveChannel_frame hserve]
      have hlt : c < s.ch.length := hcs c List.mem_cons_self
      rw [ih h (fun d hd => hlen.symm ▸ hcs d (List.mem_cons_of_mem c hd)) hrest, serveChannel_channel hserve hlt, heng]
      by_cases hk : k = c
      · subst hk
        simp [hnew]
      · simp [hk]

/-- What a tick that answers does (R250): the due set, the loop, AutoStop. -/
theorem tickSequence_eq_ok {e : Trigger} {s t : State} (h : tickSequence e s = .ok t) :
    ∃ due s1 s2, dueSet e s = .ok (due, s1) ∧ serveChannels e.ts due s1 = .ok s2 ∧ t = autoStop s2 := by
  unfold tickSequence at h
  split at h
  · cases h
  · next due s1 hdue =>
    split at h <;> cases h
    next s2 hserve => exact ⟨due, s1, s2, hdue, hserve, rfl⟩

/-- The due set writes the dividers' counts alone (R251, R252). -/
theorem dueSet_channel {e : Trigger} {s s1 : State} {due : List Nat} (h : dueSet e s = .ok (due, s1)) (c : Nat) :
    ∃ n, s1.channel c = { s.channel c with divcnt := n } := by
  rcases (dueSet_ok h).2 with rfl | rfl
  · exact ⟨_, rfl⟩
  · rw [fireCounted_channel]
    exact countFire_divcnt _

/-- So it writes the channels alone. -/
theorem dueSet_frame {e : Trigger} {s s1 : State} {due : List Nat} (h : dueSet e s = .ok (due, s1)) :
    s1 = { s with ch := s1.ch } := by
  rcases (dueSet_ok h).2 with rfl | rfl <;> rfl

/-- What a tick has written when AutoStop runs (R250, R259). -/
theorem tick_serveFrame {e : Trigger} {s s1 s2 : State} {due : List Nat} (hdue : dueSet e s = .ok (due, s1))
    (hserve : serveChannels e.ts due s1 = .ok s2) : ServeFrame s s2 := by
  have hdueFrame : ServeFrame s s1 := by
    unfold ServeFrame
    rw [dueSet_frame hdue]
  exact hdueFrame.trans (serveChannels_frame hserve)

theorem dueSet_descriptors {e : Trigger} {s s1 : State} {due : List Nat} (h : dueSet e s = .ok (due, s1)) :
    SameDescriptors s s1 := by
  rcases (dueSet_ok h).2 with rfl | rfl
  · exact .refl _
  · exact sameDescriptors_of_map rfl countFire_descriptor

/-- The channels when AutoStop looks at them (R250, R256): the due ones counted, and no other field but the dividers'
counts written. -/
theorem tick_channel {e : Trigger} {s s1 s2 : State} {due : List Nat} (hs : s.Shaped)
    (hdue : dueSet e s = .ok (due, s1)) (hserve : serveChannels e.ts due s1 = .ok s2) (c : Nat) :
    ∃ n, s2.channel c =
      if c ∈ due then Channel.counted s.eng.cap { s.channel c with divcnt := n }
      else { s.channel c with divcnt := n } := by
  obtain ⟨n, hn⟩ := dueSet_channel hdue c
  have hlen : s1.ch.length = s.ch.length := (dueSet_sameShape hdue).ch
  have heng : s1.eng = s.eng := by rw [dueSet_frame hdue]
  have hlt : ∀ d ∈ due, d < s1.ch.length := fun d hd => hlen.symm ▸ channel_index_lt hs ((dueSet_ok hdue).1 d hd).1
  have hnodup : due.Nodup := (dueSet_pairwise hdue).imp Nat.ne_of_lt
  exact ⟨n, by rw [serveChannels_channel hserve hlt hnodup, heng, hn]⟩

/-- A due channel whose record brings `produced` to the cap (R256). -/
def CapReached (s : State) (due : List Nat) (c : Nat) : Prop :=
  c ∈ due ∧ s.eng.cap ≠ 0 ∧ (s.channel c).produced + 1 = s.eng.cap

theorem stopProcedure_channel (s : State) (c : Nat) :
    (stopProcedure s).channel c = { s.channel c with active := false } :=
  channel_map s (fun d => { d with active := false }) rfl c

section

variable {e : Trigger} {s s1 s2 : State} {due : List Nat}

theorem tick_produced (hs : s.Shaped) (hdue : dueSet e s = .ok (due, s1))
    (hserve : serveChannels e.ts due s1 = .ok s2) (c : Nat) :
    (s2.channel c).produced = if c ∈ due then (s.channel c).produced + 1 else (s.channel c).produced := by
  obtain ⟨n, hn⟩ := tick_channel hs hdue hserve c
  rw [hn]
  split
  · rw [counted_eq]
  · rfl

theorem tick_active (hs : s.Shaped) (hdue : dueSet e s = .ok (due, s1))
    (hserve : serveChannels e.ts due s1 = .ok s2) (c : Nat) :
    (s2.channel c).active = true ↔ (s.channel c).active = true ∧ ¬CapReached s due c := by
  obtain ⟨n, hn⟩ := tick_channel hs hdue hserve c
  rw [hn]
  split
  · next hc =>
    simp only [counted_eq, CapReached, hc, true_and, Bool.and_eq_true, Bool.not_eq_true', decide_eq_false_iff_not]
  · next hc => simp [CapReached, hc]

theorem tick_descriptors (hdue : dueSet e s = .ok (due, s1)) (hserve : serveChannels e.ts due s1 = .ok s2) :
    SameDescriptors s s2 :=
  (dueSet_descriptors hdue).trans (serveChannels_descriptors hserve)

/-- When AutoStop's condition holds at the end of a tick (R257). -/
theorem tick_finished_iff (hs : s.Shaped) (hdue : dueSet e s = .ok (due, s1))
    (hserve : serveChannels e.ts due s1 = .ok s2) :
    s2.Finished ↔ s.eng.cap ≠ 0 ∧
      ∀ c, c < s.cfg.nChannels → (s.channel c).valid = true → (s.channel c).mode = s.eng.amode →
        (s.channel c).active = false ∨ (c ∈ due ∧ (s.channel c).produced + 1 = s.eng.cap) := by
  have heng : s2.eng = s.eng := by rw [tick_serveFrame hdue hserve]
  have hcfg : s2.cfg = s.cfg := by rw [tick_serveFrame hdue hserve]
  have hsame := tick_descriptors hdue hserve
  have hmode : ∀ c, (s2.channel c).mode = (s.channel c).mode := fun c => by
    have hm := congrArg Channel.mode (hsame.channel c)
    exact hm
  unfold State.Finished
  rw [heng, hcfg]
  refine and_congr_right fun hcap => forall_congr' fun c => forall_congr' fun _ => ?_
  rw [hsame.valid c, hmode c]
  refine forall_congr' fun _ => forall_congr' fun _ => ?_
  rw [← Bool.not_eq_true, tick_active hs hdue hserve, CapReached, ← Bool.not_eq_true]
  tauto

end

/-- Settles O42: the channels before AutoStop by the lemmas above, and AutoStop by its two cases. -/
theorem tickCountsOnePerDueChannel : Obligations.TickCountsOnePerDueChannel := by
  intro s s1 t e due hs hdue htick
  obtain ⟨due', s1', s2, hdue', hserve, rfl⟩ := tickSequence_eq_ok htick
  cases hdue.symm.trans hdue'
  have hshape : s2.Shaped := ((dueSet_sameShape hdue).trans (serveChannels_sameShape hserve)).shaped hs
  have heng : s2.eng = s.eng := by rw [tick_serveFrame hdue hserve]
  have hproduced := tick_produced hs hdue hserve
  have hfinished := tick_finished_iff hs hdue hserve
  by_cases hfin : s2.Finished
  case pos =>
    rw [autoStop_of_finished hshape hfin]
    refine ⟨fun c _ => ?_, fun _ => ⟨iff_of_true rfl (hfinished.mp hfin), nofun, fun _ d hd => ?_⟩⟩
    · rw [stopProcedure_channel]
      exact hproduced c
    · obtain ⟨_, _, rfl⟩ := List.mem_map.mp hd
      rfl
  case neg =>
    rw [autoStop_of_not_finished hshape hfin, heng]
    refine ⟨fun c _ => hproduced c, fun harmed => ⟨iff_of_false (by simp [harmed]) (mt hfinished.mpr hfin),
      fun _ c _ => tick_active hs hdue hserve c, fun hidle => absurd (harmed.symm.trans hidle) nofun⟩⟩

end Sys2Proof.Machine
end

section
/-! SUPPORT. What a tick appends (44_tick_sequencer.md R250, R253 to R255): BUSLOG entries and records, channel by channel,
and the ring as the pushes of R90 leave it. -/

namespace Sys2Proof.Machine

/-! ## One channel -/

/-- `log` and `rec` belong together: what the fetch of a channel leaves in BUSLOG, and the record made of it. -/
def Sampled (ts : BitVec 64) (c : Nat) (d : Channel) (log : List BusRd) (rec : List Byte) : Prop :=
  fetchLogged d log ∧ recordOf c d ts log rec ∧ rec.length = 3 + blockTotal d.blocks + tsLen d.tsEn

/-- What a channel is sampled for stands in its descriptor (R41). -/
theorem Sampled.congr {ts : BitVec 64} {c : Nat} {d d0 : Channel} {log : List BusRd} {rec : List Byte}
    (h : Sampled ts c d0 log rec) (hd : d0.descriptor = d.descriptor) : Sampled ts c d log rec := by
  change Sampled ts c d0.descriptor log rec at h
  rw [hd] at h
  exact h

/-- Sampling a channel that holds a checked descriptor (R45, R253, R255). -/
theorem sample_sampled {s : State} (hs : s.Shaped) (hd : s.DescriptorsOk) {c : Nat} (hc : c < s.cfg.nChannels)
    (hv : (s.channel c).valid = true) (ts : BitVec 64) :
    ∃ log, (sample c ts s).2.busLog = s.busLog ++ log ∧ Sampled ts c (s.channel c) log (sample c ts s).1 := by
  obtain ⟨⟨_, _, _, _, _, ⟨_, hch⟩, _, ⟨_, hcap⟩, _⟩, _⟩ := hs
  obtain ⟨_, _, _, _, hfits, _⟩ := hd _ (channel_mem s c hv) hv
  obtain ⟨ds, hds, hdata, herr, hlog⟩ :=
    fetchBlocks_delivered (s.channel c).bus (s.channel c).dev (s.channel c).blocks s
  refine ⟨_, hlog, fetchLogged_fetchLog hds, ?_, ?_⟩
  · have hrec := recordOf_formatRecord hds (show c < 16 by omega) (hfits.trans hcap) ts
    rwa [← hdata, ← herr] at hrec
  · rw [← fetchBlocks_length (s.channel c).bus (s.channel c).dev (s.channel c).blocks false s]
    exact formatRecord_length _ _ _ _ _

/-- Serving a due channel (R250): its fetch and its record belong together, and the record is pushed as R90 says. -/
theorem serveChannel_sampled {s : State} (hs : s.Shaped) (hd : s.DescriptorsOk) {q : List (List Byte)}
    (hrep : Represents s.cfg s.ring q) (hunread : HeadUnread q) {c : Nat} (hc : c < s.cfg.nChannels)
    (hv : (s.channel c).valid = true) (ts : BitVec 64) :
    ∃ t log rec, serveChannel ts c s = .ok t ∧ t.busLog = s.busLog ++ log ∧ Sampled ts c (s.channel c) log rec ∧
      Represents s.cfg t.ring (viewPush s.cfg.bufCap rec q s.ring.ovf).1 ∧
      HeadUnread (viewPush s.cfg.bufCap rec q s.ring.ovf).1 ∧
      t.ring.ovf = (viewPush s.cfg.bufCap rec q s.ring.ovf).2 := by
  obtain ⟨log, hlog, hsampled⟩ := sample_sampled hs hd hc hv ts
  obtain ⟨hwell, hnew⟩ := sample_wellFormed hs hd hc hv ts
  obtain ⟨r, hpush, hrep', hunread', hovf⟩ := hrep.push hs.1 hunread hwell hnew
  exact ⟨((sample c ts s).2.setRing r).count c, log, _, by simp only [serveChannel, hpush], hlog, hsampled, hrep',
    hunread', hovf⟩

/-! ## The due channels -/

/-- The pushes of several records on the abstract view (R90). -/
def viewPushAll (cap : Nat) (recs : List (List Byte)) (x : List (List Byte) × Bool) : List (List Byte) × Bool :=
  recs.foldl (fun x r => viewPush cap r x.1 x.2) x

theorem viewPush_of_room {cap : Nat} {rec : List Byte} {q : List (List Byte)} (h : viewUsed q + rec.length ≤ cap)
    (ovf : Bool) : viewPush cap rec q ovf = (q ++ [rec], ovf) := by
  simp only [viewPush]
  rw [viewEvict_of_room (by omega)]

/-- With room for all the records none is lost and OVF is as it was (R85, R90). -/
theorem viewPushAll_of_room {cap : Nat} {recs q : List (List Byte)}
    (h : viewUsed q + (recs.map List.length).sum ≤ cap) (ovf : Bool) :
    viewPushAll cap recs (q, ovf) = (q ++ recs, ovf) := by
  induction recs generalizing q with
  | nil => simp [viewPushAll]
  | cons r recs ih =>
    rw [List.map_cons, List.sum_cons] at h
    have hused : viewUsed (q ++ [r]) = viewUsed q + r.length := by simp [viewUsed]
    have hpush := viewPush_of_room (cap := cap) (rec := r) (q := q) (by omega) ovf
    have hrest := ih (q := q ++ [r]) (by omega)
    rw [List.append_assoc, List.singleton_append] at hrest
    simp only [viewPushAll, List.foldl_cons] at hrest ⊢
    rw [hpush]
    exact hrest

/-- The loop of a tick over due channels (R250): a fetch and a record for each, in their order. -/
theorem serveChannels_sampled {cs : List Nat} {s : State} (hs : s.Shaped) (hd : s.DescriptorsOk)
    {q : List (List Byte)} (hrep : Represents s.cfg s.ring q) (hunread : HeadUnread q)
    (hcs : ∀ c ∈ cs, c < s.cfg.nChannels ∧ (s.channel c).valid = true) (ts : BitVec 64) :
    ∃ t out, serveChannels ts cs s = .ok t ∧ t.busLog = s.busLog ++ (out.map Prod.fst).flatten ∧
      List.Forall₂ (fun c x => Sampled ts c (s.channel c) x.1 x.2) cs out ∧
      Represents s.cfg t.ring (viewPushAll s.cfg.bufCap (out.map Prod.snd) (q, s.ring.ovf)).1 ∧
      t.ring.ovf = (viewPushAll s.cfg.bufCap (out.map Prod.snd) (q, s.ring.ovf)).2 := by
  induction cs generalizing s q with
  | nil => exact ⟨s, [], rfl, (List.append_nil _).symm, .nil, hrep, rfl⟩
  | cons c cs ih =>
    obtain ⟨hc, hv⟩ := hcs c List.mem_cons_self
    obtain ⟨s', log, rec, hserve, hlog, hsampled, hrep', hunread', hovf'⟩ :=
      serveChannel_sampled hs hd hrep hunread hc hv ts
    have hshape := serveChannel_sameShape hserve
    have hsame := serveChannel_descriptors hserve
    have hcs' : ∀ d ∈ cs, d < s'.cfg.nChannels ∧ (s'.channel d).valid = true := fun d hmem => by
      rw [hshape.cfg, hsame.valid]
      exact hcs d (List.mem_cons_of_mem c hmem)
    obtain ⟨t, out, hrest, hlogs, hout, hrepAll, hovfAll⟩ :=
      ih (hshape.shaped hs) (hsame.descriptorsOk hshape.cfg hd) (hshape.cfg.symm ▸ hrep') hunread' hcs'
    rw [hshape.cfg, hovf'] at hrepAll hovfAll
    refine ⟨t, (log, rec) :: out, by simp only [serveChannels, hserve, hrest], ?_,
      .cons hsampled (hout.imp fun d x hx => hx.congr (hsame.channel d)), hrepAll, hovfAll⟩
    rw [hlogs, hlog, List.append_assoc]
    rfl

/-! ## The tick -/

/-- AutoStop writes neither the ring nor BUSLOG (R216, R257). -/
theorem autoStop_ring_busLog (s : State) : (autoStop s).ring = s.ring ∧ (autoStop s).busLog = s.busLog := by
  rcases autoStop_cases s with hstop | ⟨_, hstop⟩ <;> rw [hstop]
  · exact ⟨rfl, rfl⟩
  · rw [stopProcedure_frame]
    exact ⟨rfl, rfl⟩

/-- A tick over its due set (R250). -/
theorem tickSequence_sampled {s s1 : State} {e : Trigger} {due : List Nat} {q : List (List Byte)} (hs : s.Shaped)
    (hd : s.DescriptorsOk) (hring : s.ring.Ok s.cfg) (hdue : dueSet e s = .ok (due, s1))
    (hview : s.ring.view s.cfg.bufCap = some q) :
    ∃ t out, tickSequence e s = .ok t ∧ t.busLog = s.busLog ++ (out.map Prod.fst).flatten ∧
      List.Forall₂ (fun c x => Sampled e.ts c (s.channel c) x.1 x.2) due out ∧
      t.ring.view s.cfg.bufCap = some (viewPushAll s.cfg.bufCap (out.map Prod.snd) (q, s.ring.ovf)).1 ∧
      t.ring.ovf = (viewPushAll s.cfg.bufCap (out.map Prod.snd) (q, s.ring.ovf)).2 := by
  obtain ⟨hrep, hunread⟩ := represents_of_view hring hview
  have hsame := dueSet_descriptors hdue
  have hshape := dueSet_sameShape hdue
  have hring1 : s1.ring = s.ring := by rw [dueSet_frame hdue]
  have hlog1 : s1.busLog = s.busLog := by rw [dueSet_frame hdue]
  have hvalid : ∀ c ∈ due, c < s1.cfg.nChannels ∧ (s1.channel c).valid = true := fun c hc => by
    rw [hshape.cfg, hsame.valid]
    exact (dueSet_ok hdue).1 c hc
  obtain ⟨s2, out, hserve, hlog, hout, hrep2, hovf2⟩ := serveChannels_sampled (hshape.shaped hs)
    (hsame.descriptorsOk hshape.cfg hd) (hshape.cfg.symm ▸ hring1.symm ▸ hrep) hunread hvalid e.ts
  obtain ⟨hringStop, hlogStop⟩ := autoStop_ring_busLog s2
  rw [hshape.cfg, hring1] at hrep2 hovf2
  refine ⟨autoStop s2, out, by simp only [tickSequence, hdue, hserve], ?_,
    hout.imp fun c x hx => hx.congr (hsame.channel c), ?_, ?_⟩
  · rw [hlogStop, hlog, hlog1]
  · rw [hringStop]
    exact hrep2.view
  · rw [hringStop, hovf2]

/-- Settles O43: `tickSequence_sampled`, with the pairs taken apart into logs and records. -/
theorem tickAppendsDueRecords : Obligations.TickAppendsDueRecords := by
  intro s s1 e due q hs hd hring hdue hview
  obtain ⟨t, out, htick, hlog, hout, hpushed, hovf⟩ := tickSequence_sampled hs hd hring hdue hview
  have hlen := hout.length_eq
  refine ⟨t, out.map Prod.snd, out.map Prod.fst, htick, dueSet_pairwise hdue, by simp [hlen], by simp [hlen], hlog,
    fun k c hk => ?sampled, hpushed, hovf, fun hroom => ?room⟩
  case sampled =>
    obtain ⟨hlt, rfl⟩ := List.getElem?_eq_some_iff.mp hk
    have hlt' : k < out.length := hlen ▸ hlt
    obtain ⟨hlogged, hrecord, _⟩ := hout.get hlt hlt'
    exact ⟨out[k].1, out[k].2, by simp [hlt'], by simp [hlt'], hlogged, hrecord⟩
  case room =>
    have hlengths : due.map (fun c => 3 + blockTotal (s.channel c).blocks + tsLen (s.channel c).tsEn) =
        (out.map Prod.snd).map List.length := by
      rw [← List.forall₂_eq_eq_eq, List.map_map, List.forall₂_map_left_iff, List.forall₂_map_right_iff]
      exact hout.imp fun c x ⟨_, _, hlength⟩ => hlength.symm
    rw [hlengths] at hroom
    rw [hpushed, hovf, viewPushAll_of_room hroom]
    exact ⟨rfl, rfl⟩

end Sys2Proof.Machine
end

section
/-! SUPPORT. What the handler of a trigger leaves alone (44_tick_sequencer.md R259, 60_exceptions.md R293): what the loop of
a tick keeps, and the stop procedure that AutoStop runs. -/

namespace Sys2Proof.Machine

/-- The loop of a tick only appends to BUSLOG (R53). -/
theorem serveChannel_busLog {ts : BitVec 64} {c : Nat} {s t : State} (h : serveChannel ts c s = .ok t) :
    s.busLog <+: t.busLog := by
  obtain ⟨r, _, rfl⟩ := serveChannel_eq_ok h
  obtain ⟨ds, _, _, _, hlog⟩ := fetchBlocks_delivered (s.channel c).bus (s.channel c).dev (s.channel c).blocks s
  exact ⟨_, hlog.symm⟩

theorem serveChannels_busLog {ts : BitVec 64} {cs : List Nat} {s t : State} (h : serveChannels ts cs s = .ok t) :
    s.busLog <+: t.busLog :=
  serveChannels_induction (P := fun s t => s.busLog <+: t.busLog) (fun _ => ⟨[], List.append_nil _⟩) List.IsPrefix.trans
    serveChannel_busLog h

theorem disarmTrigger_tmr_of_polling {s : State} (hmode : s.eng.amode = .polling) :
    s.disarmTrigger.tmr =
      if (s.timer s.cfg.streamTimer).state = .stopped then s.tmr
      else s.tmr.set s.cfg.streamTimer ((s.timer s.cfg.streamTimer).halt s.free s.cfg.streamTimer) := by
  rw [disarmTrigger_of_polling hmode, State.purge_tmr]
  rcases stopTimer_cases s.cfg.streamTimer s with ⟨hstate, hst⟩ | ⟨hstate, hst⟩ <;> rw [hst]
  · rw [if_pos hstate]
  · rw [if_neg hstate]
    rfl

theorem disarmTrigger_bind_of_interrupt {s : State} (hmode : s.eng.amode = .interrupt) :
    s.disarmTrigger.bind = s.bind.mapIdx fun p b =>
      if (pinsOf (s.matching .interrupt)).contains p ∧ b.valid = true then Binding.clear s.free p else b := by
  simp only [State.disarmTrigger, hmode]

theorem disarmTrigger_purges_of_interrupt {s : State} (hmode : s.eng.amode = .interrupt) :
    s.disarmTrigger.trigq = purgeSources ((pinsOf (s.matching .interrupt)).map .pin) s.trigq := by
  simp only [State.disarmTrigger, hmode]

/-- The first part of the stop procedure reads only what the loop of a tick keeps: the timers, the bindings, TRIGQ, the
mode and the descriptors, beside the count of free values (R216, log 5). -/
theorem disarmTrigger_of_serveFrame {s t : State} (h : ServeFrame s t) (hsame : SameDescriptors s t) :
    t.disarmTrigger.tmr = { s with free := t.free }.disarmTrigger.tmr ∧
    t.disarmTrigger.bind = { s with free := t.free }.disarmTrigger.bind ∧
    t.disarmTrigger.trigq = { s with free := t.free }.disarmTrigger.trigq := by
  have hpins : pinsOf (t.matching .interrupt) = pinsOf (State.matching { s with free := t.free } .interrupt) :=
    hsame.pinsOf .interrupt
  have heng : t.eng = s.eng := by rw [h]
  cases hmode : t.eng.amode with
  | polling =>
    have hmode' : (State.eng { s with free := t.free }).amode = .polling := heng ▸ hmode
    rw [disarmTrigger_tmr_of_polling hmode, disarmTrigger_tmr_of_polling hmode', disarmTrigger_bind_of_polling hmode,
      disarmTrigger_bind_of_polling hmode', disarmTrigger_trigq_of_polling hmode,
      disarmTrigger_trigq_of_polling hmode', h]
    exact ⟨rfl, rfl, rfl⟩
  | interrupt =>
    have hmode' : (State.eng { s with free := t.free }).amode = .interrupt := heng ▸ hmode
    rw [disarmTrigger_tmr_of_interrupt hmode, disarmTrigger_tmr_of_interrupt hmode',
      disarmTrigger_bind_of_interrupt hmode, disarmTrigger_bind_of_interrupt hmode',
      disarmTrigger_purges_of_interrupt hmode, disarmTrigger_purges_of_interrupt hmode', hpins, h]
    exact ⟨rfl, rfl, rfl⟩

/-- The handler's writes to TMR, BIND, TRIGQ and ENG (R216, R257, R259): none, or those of the stop procedure. -/
def HandlerStops (s t : State) : Prop :=
  (t.tmr = s.tmr ∧ t.bind = s.bind ∧ t.trigq = s.trigq ∧ t.eng = s.eng) ∨
    (s.eng.cap ≠ 0 ∧ t.eng = { s.eng with armed := false } ∧
      ∃ k, t.tmr = { s with free := k }.disarmTrigger.tmr ∧ t.bind = { s with free := k }.disarmTrigger.bind ∧
        t.trigq = { s with free := k }.disarmTrigger.trigq)

theorem autoStop_handlerStops {s t : State} (h : ServeFrame s t) (hsame : SameDescriptors s t) :
    HandlerStops s (autoStop t) := by
  have heng : t.eng = s.eng := by rw [h]
  rcases autoStop_cases t with hgoes | ⟨hcap, hstop⟩
  · rw [hgoes, h]
    exact .inl ⟨rfl, rfl, rfl, rfl⟩
  · rw [hstop, stopProcedure_frame]
    exact .inr ⟨heng ▸ hcap, by rw [← heng], t.free, disarmTrigger_of_serveFrame h hsame⟩

/-- What a tick leaves alone (R259). -/
theorem tickSequence_frame {e : Trigger} {s t : State} (h : tickSequence e s = .ok t) :
    SameDescriptors s t ∧ HandlerStops s t ∧ t.evt = s.evt ∧ s.busLog <+: t.busLog ∧ DispatchFrame s t := by
  have hframe : DispatchFrame s t := (dispatchFrame_kept s).tickSequence (.refl s) h
  obtain ⟨due, s1, s2, hdue, hserve, rfl⟩ := tickSequence_eq_ok h
  have hsame := tick_descriptors hdue hserve
  have hserved := tick_serveFrame hdue hserve
  have hevt : s2.evt = s.evt := by rw [hserved]
  have hlog1 : s1.busLog = s.busLog := by rw [dueSet_frame hdue]
  have hlog : s.busLog <+: s2.busLog := hlog1 ▸ serveChannels_busLog hserve
  refine ⟨hsame.trans ?_, autoStop_handlerStops hserved hsame, ?_, ?_, hframe⟩
  all_goals rcases autoStop_cases s2 with hstop | ⟨_, hstop⟩ <;> rw [hstop]
  · exact .refl s2
  · exact stopProcedure_sameDescriptors s2
  · exact hevt
  · rw [stopProcedure_frame]
    exact hevt
  · exact hlog
  · rw [stopProcedure_frame]
    exact hlog

/-- Settles O44: a handler does nothing, appends to EVT, or runs the tick sequence. -/
theorem handlerFrame : Obligations.HandlerFrame := by
  intro s t e h
  have unchanged : HandlerStops s s := .inl ⟨rfl, rfl, rfl, rfl⟩
  have hevtSame : s.evt <+: s.evt := ⟨[], List.append_nil _⟩
  have hlogSame : s.busLog <+: s.busLog := ⟨[], List.append_nil _⟩
  rcases runHandler_cases e s with hnone | ⟨ev, hcallback⟩ | htick
  · cases hnone.symm.trans h
    exact ⟨rfl, unchanged, hevtSame, hlogSame, rfl⟩
  · cases hcallback.symm.trans h
    exact ⟨rfl, unchanged, ⟨[ev], rfl⟩, hlogSame, rfl⟩
  · rw [htick] at h
    unfold runTick at h
    split at h <;> cases h
    next hok =>
      obtain ⟨hsame, hstops, hevt, hlog, hframe⟩ := tickSequence_frame hok
      exact ⟨hsame, hstops, hevt.symm ▸ hevtSame, hlog, hframe⟩

end Sys2Proof.Machine
end

section
/-! SUPPORT. What Dispatch runs (60_exceptions.md R289): one equation for each kind of handler. -/

namespace Sys2Proof.Machine

theorem dispatchStep_of_trigger {s : State} {e : Trigger} {rest : List Trigger} (hq : s.trigq = e :: rest) :
    dispatchStep s = runHandler e { s with trigq := rest } := by
  simp only [dispatchStep, hq]

theorem dispatchStep_of_empty {s : State} (hq : s.trigq = []) : dispatchStep s = .next s := by
  simp only [dispatchStep, hq]

section

variable {s : State} {e : Trigger}

theorem runHandler_timer_ext {i : Nat} {tag : Byte} (hsrc : e.src = .timer i) (ht : (s.timer i).target = .ext tag) :
    runHandler e s = .next (s.emit (.timerCb tag i)) := by
  simp only [runHandler, hsrc, ht]

theorem runHandler_timer_none {i : Nat} (hsrc : e.src = .timer i) (ht : (s.timer i).target = .none) :
    runHandler e s = .next s := by
  simp only [runHandler, hsrc, ht]

theorem runHandler_timer_stream {i : Nat} (hsrc : e.src = .timer i) (ht : (s.timer i).target = .stream) :
    runHandler e s = runTick e s := by
  simp only [runHandler, hsrc, ht]

theorem runHandler_pin_unbound {p : Nat} (hsrc : e.src = .pin p) (hv : (s.binding p).valid = false) :
    runHandler e s = .next s := by
  simp only [runHandler, hsrc, hv, if_true]

theorem runHandler_pin_ext {p : Nat} {tag : Byte} (hsrc : e.src = .pin p) (hv : (s.binding p).valid = true)
    (ht : (s.binding p).target = .ext tag) : runHandler e s = .next (s.emit (.pinCb tag p e.val e.ts)) := by
  simp [runHandler, hsrc, hv, ht]

theorem runHandler_pin_stream {p : Nat} (hsrc : e.src = .pin p) (hv : (s.binding p).valid = true)
    (ht : (s.binding p).target = .stream) : runHandler e s = runTick e s := by
  simp [runHandler, hsrc, hv, ht]

theorem runTick_of_ok {t : State} (h : tickSequence e s = .ok t) : runTick e s = .next t := by
  simp only [runTick, h]

end

/-- Settles O47, by the handler that the source's current binding names. -/
theorem dispatchRunsHandler : Obligations.DispatchRunsHandler := by
  intro s e rest hq
  have hstep : agentStep .dispatch s = runHandler e { s with trigq := rest } := dispatchStep_of_trigger hq
  rw [hstep]
  refine ⟨fun _ _ hsrc ht => runHandler_timer_ext hsrc ht, fun _ hsrc ht => runHandler_timer_none hsrc ht,
    fun i t hsrc ht htick => ?fire, fun _ _ hsrc hv ht => runHandler_pin_ext hsrc hv ht,
    fun _ hsrc hv => runHandler_pin_unbound hsrc hv, fun p t hsrc hv ht htick => ?edge⟩
  case fire => exact (runHandler_timer_stream (s := { s with trigq := rest }) hsrc ht).trans (runTick_of_ok htick)
  case edge => exact (runHandler_pin_stream (s := { s with trigq := rest }) hsrc hv ht).trans (runTick_of_ok htick)

end Sys2Proof.Machine
end

section
/-! SUPPORT. No step halts (60_exceptions.md R280): with the invariants every agent's step answers a next state. -/

namespace Sys2Proof.Machine

/-- With the ring invariants a tick that has a due set completes (R47, R250). -/
theorem tickSequence_completes {s s1 : State} {e : Trigger} {due : List Nat} (h : RingSound s)
    (hdue : dueSet e s = .ok (due, s1)) : ∃ t, tickSequence e s = .ok t := by
  obtain ⟨q, hrep, _⟩ := (ringOk_iff _ _).mp h.ring
  obtain ⟨t, _, htick, _⟩ := tickSequence_sampled h.shaped h.descriptors h.ring hdue hrep.view
  exact ⟨t, htick⟩

theorem runTick_completes {s s1 : State} {e : Trigger} {due : List Nat} (h : RingSound s)
    (hdue : dueSet e s = .ok (due, s1)) : ∃ t, runTick e s = .next t := by
  obtain ⟨t, htick⟩ := tickSequence_completes h hdue
  exact ⟨t, runTick_of_ok htick⟩

/-- The handler of a pending trigger completes: one of the engine's comes from the source of the armed mode, which has
a due set (R57 I2, R251, R252). -/
theorem runHandler_completes {s : State} {e : Trigger} (hr : RingSound s) (he : EngineInv s)
    (hfire : ∀ i, e.src = .timer i → s.FireHandled i (s.timer i).target)
    (hedge : ∀ p, e.src = .pin p → p < s.cfg.nPins) : ∃ t, runHandler e s = .next t := by
  cases hsrc : e.src with
  | timer i =>
    cases ht : (s.timer i).target with
    | none => exact ⟨_, runHandler_timer_none hsrc ht⟩
    | ext tag => exact ⟨_, runHandler_timer_ext hsrc ht⟩
    | stream =>
      obtain ⟨_, hmode, rfl⟩ := (hfire i hsrc).2 ht
      rw [runHandler_timer_stream hsrc ht]
      exact runTick_completes hr (dueSet_of_fire hmode hsrc)
  | pin p =>
    cases hv : (s.binding p).valid with
    | false => exact ⟨_, runHandler_pin_unbound hsrc hv⟩
    | true =>
      cases ht : (s.binding p).target with
      | ext tag => exact ⟨_, runHandler_pin_ext hsrc hv ht⟩
      | stream =>
        obtain ⟨_, hengine⟩ := he.bindings p (hedge p hsrc) hv
        obtain ⟨_, hmode, _⟩ := hengine ht
        rw [runHandler_pin_stream hsrc hv ht]
        exact runTick_completes hr (dueSet_of_edge hmode hsrc)

theorem dispatchStep_completes {s : State} (hr : RingSound s) (he : EngineInv s) : ∃ t, dispatchStep s = .next t := by
  cases hq : s.trigq with
  | nil => exact ⟨s, dispatchStep_of_empty hq⟩
  | cons e rest =>
    have hmem : e ∈ s.trigq := hq ▸ List.mem_cons_self
    rw [dispatchStep_of_trigger hq]
    exact runHandler_completes (ringSound_stepKept.taken hq hr)
      (he.drop fun x hx => hq ▸ List.mem_cons_of_mem e hx) (fun i hsrc => (he.fires e hmem i hsrc).2)
      fun p hsrc => (he.edges e hmem p hsrc).1

/-- With the ring invariants a pop completes (R47, R88). -/
theorem rdPop_completes {s : State} (h : s.ring.Ok s.cfg) : ∃ t, rdPop s = .next t := by
  obtain ⟨q, hrep, hunread⟩ := (ringOk_iff _ _).mp h
  obtain ⟨r, hpop, _⟩ := hrep.popOne hunread s.rd.filter
  simp only [rdPop, hpop]
  exact ⟨_, rfl⟩

theorem runFrame_completes (frame : List Word) (s : State) : ∃ t, runFrame frame s = .next t := by
  rcases runFrame_cases frame s with ⟨i, _, hrun⟩ | hrun | ⟨opc, hrun⟩ <;> rw [hrun]
  · obtain ⟨t, hexec, _⟩ := exec_completes s i
    exact ⟨t, hexec⟩
  · exact ⟨_, rfl⟩
  · exact ⟨_, rfl⟩

theorem foregroundStep_completes {s : State} (h : s.ring.Ok s.cfg) : ∃ t, foregroundStep s = .next t := by
  rcases foregroundStep_cases s with ⟨_, _, hf⟩ | ⟨_, _, hf⟩ | ⟨_, _, hf⟩ | ⟨_, frame, rest, _, hf⟩ <;> rw [hf]
  · exact ⟨_, rfl⟩
  · exact rdPop_completes h
  · exact ⟨_, rfl⟩
  · exact runFrame_completes frame _

theorem agentStep_completes (a : AgentStep) {s : State} (hr : RingSound s) (he : EngineInv s) :
    ∃ t, agentStep a s = .next t := by
  cases a with
  | usTick => exact ⟨_, rfl⟩
  | pinChange p v => exact ⟨_, rfl⟩
  | dispatch => exact dispatchStep_completes hr he
  | host words =>
    exact foregroundStep_completes (ringSound_stepKept.bookkeeping (acceptWords_bookkeeping words s) hr).ring
  | reset => exact ⟨_, rfl⟩

theorem step_completes {s : State} (hr : RingSound s) (he : EngineInv s) : ∃ t, step s = .next t := by
  have hadv := advance_bookkeeping s
  have hsound := engineSound_stepKept.bookkeeping hadv ⟨hr.shaped, hr.descriptors, he⟩
  unfold step
  rcases step_cases s with ⟨_, hn⟩ | ⟨_, hn⟩ <;> rw [hn]
  · exact dispatchStep_completes hr he
  · exact agentStep_completes s.nextAgent (ringSound_stepKept.bookkeeping hadv hr) hsound.engine

/-- Settles O56: `step_completes`, and each invariant by the statement that every step keeps it. -/
theorem everyStepKeepsInvariants : Obligations.EveryStepKeepsInvariants := by
  rintro s ⟨hshaped, hdesc, hengine, hqueue, hprompt, hring, hport⟩
  obtain ⟨t, hstep⟩ := step_completes ⟨hshaped, hdesc, hring⟩ ((engineInv_iff s).mpr hengine)
  obtain ⟨hqueueKept, hportKept⟩ := stepKeepsQueue s t hstep
  obtain ⟨hqueue', hprompt'⟩ := hqueueKept hshaped hqueue hprompt
  exact ⟨t, hstep, (stepKeepsShape s t hshaped hstep).2, stepKeepsDescriptors s t hshaped hdesc hstep,
    stepKeepsEngine s t hshaped hdesc hengine hstep, hqueue', hprompt', stepKeepsRing s t hshaped hdesc hring hstep,
    hportKept hport⟩

end Sys2Proof.Machine
end

section
/-! SUPPORT. What UsTick and PinChange do (60_exceptions.md R285 to R287, R290): the case of each timer, the level of a
pin, and TRIGQ with TRIG_OVERRUN after the latches. -/

namespace Sys2Proof.Machine

/-! ## Latches -/

/-- What one latch does to TRIGQ (R287). -/
theorem latch_trigq (src : TrigSource) (val : Bool) (s : State) :
    (s.latch src val).trigq = s.trigq ++
      if s.trigq.length < s.cfg.trigqDepth then [{ src := src, val := val, ts := s.us }] else [] := by
  rcases latch_cases src val s with ⟨hroom, hl⟩ | ⟨hfull, hl⟩ <;> rw [hl]
  · simp only [hroom, if_true]
  · simp only [Nat.not_lt.mpr hfull, if_false, List.append_nil]

/-- What one latch does to TRIG_OVERRUN (R287). -/
theorem latch_overrun (src : TrigSource) (val : Bool) (s : State) :
    (s.latch src val).trigOverrun = (s.trigOverrun || decide (s.cfg.trigqDepth ≤ s.trigq.length)) := by
  rcases latch_cases src val s with ⟨hroom, hl⟩ | ⟨hfull, hl⟩ <;> rw [hl]
  · simp [Nat.not_le.mpr hroom]
  · simp [hfull]

/-- Several fires enter TRIGQ in their order as far as it has room; TRIG_OVERRUN is set when it has not (R285, R287). -/
theorem latchAll_truncates {is : List Nat} {s : State} (h : s.QueueOk) :
    (is.foldl (fun s' i => s'.latch (.timer i) false) s).trigq =
      (s.trigq ++ is.map fun i => ({ src := .timer i, val := false, ts := s.us } : Trigger)).take s.cfg.trigqDepth ∧
    (is.foldl (fun s' i => s'.latch (.timer i) false) s).trigOverrun =
      (s.trigOverrun || decide (s.cfg.trigqDepth < s.trigq.length + is.length)) := by
  induction is generalizing s with
  | nil => simp [List.take_of_length_le h, Nat.not_lt.mpr h]
  | cons i is ih =>
    obtain ⟨htrigq, hover⟩ := ih (latch_queueOk (.timer i) false h)
    rw [List.foldl_cons, htrigq, hover]
    rcases latch_cases (.timer i) false s with ⟨_, hl⟩ | ⟨hfull, hl⟩ <;> rw [hl]
    · simp [Nat.add_assoc, Nat.add_comm 1]
    · have hlen : s.trigq.length = s.cfg.trigqDepth := Nat.le_antisymm h hfull
      simp [hlen]

/-! ## UsTick -/

theorem mem_firing_iff (s : State) (i : Nat) :
    i ∈ s.firing ↔ i < s.cfg.nTimers ∧ (s.timer i).state = .running ∧ (s.timer i).cnt + 1 = (s.timer i).timeout := by
  simp [State.firing, Timer.fires]

theorem firing_pairwise (s : State) : s.firing.Pairwise (· < ·) := List.pairwise_lt_range.filter _

/-- A timer outside the table is not RUNNING (R55). -/
theorem timer_lt_of_running {s : State} (hs : s.Shaped) {i : Nat} (h : (s.timer i).state = .running) :
    i < s.cfg.nTimers := by
  obtain ⟨_, _, _, hlen, _⟩ := hs
  by_contra hi
  have hreset : s.timer i = Timer.reset := by simp [State.timer, show s.tmr.length ≤ i by omega]
  rw [hreset] at h
  cases h

section

variable {t : Timer} {k i : Nat}

theorem tick_of_not_running (h : t.state ≠ .running) : t.tick k i = t := if_neg h

theorem tick_of_counting (hrun : t.state = .running) (hcnt : t.cnt + 1 ≠ t.timeout) :
    t.tick k i = { t with cnt := t.cnt + 1 } := by
  simp only [Timer.tick, hrun, hcnt, if_true, if_false]

theorem tick_of_periodic (hrun : t.state = .running) (hcnt : t.cnt + 1 = t.timeout) (hper : t.oneshot = false) :
    t.tick k i = { t with cnt := 0 } := by
  simp only [Timer.tick, hrun, hcnt, hper, if_true, Bool.false_eq_true, if_false]

theorem tick_of_oneshot (hrun : t.state = .running) (hcnt : t.cnt + 1 = t.timeout) (hone : t.oneshot = true) :
    t.tick k i = t.halt k i := by
  simp only [Timer.tick, hrun, hcnt, hone, if_true]

end

/-- TRIGQ and TRIG_OVERRUN after UsTick: the fires are latched with the new US (R285, R290). -/
theorem usTick_latches {s : State} (h : s.QueueOk) :
    (usTick s).trigq =
      (s.trigq ++ s.firing.map fun i => ({ src := .timer i, val := false, ts := s.us + 1 } : Trigger)).take
        s.cfg.trigqDepth ∧
    (usTick s).trigOverrun = (s.trigOverrun || decide (s.cfg.trigqDepth < s.trigq.length + s.firing.length)) := by
  unfold usTick
  exact latchAll_truncates h

/-- Settles O45: each timer by the case of `Timer.tick` it is in, TRIGQ by `usTick_latches`. -/
theorem usTickAdvancesTimers : Obligations.UsTickAdvancesTimers := by
  intro s hs hq
  have hus : (usTick s).us = s.us + 1 := by rw [usTick_frame]
  obtain ⟨htrigq, hover⟩ := usTick_latches hq
  refine ⟨usTick s, s.firing, rfl, ?us, firing_pairwise s, mem_firing_iff s, fun i hidle => ?idle,
    fun i hrun hnot => ?counting, fun i hfire hper => ?periodic, fun i hfire hone => ?oneshot, ?queue, hover, ?frame⟩
  case us =>
    rw [hus]
    exact BitVec.toNat_add s.us 1
  case idle => rw [usTick_timer, tick_of_not_running hidle]
  case counting =>
    have hcnt : (s.timer i).cnt + 1 ≠ (s.timer i).timeout := fun hreach =>
      hnot ((mem_firing_iff s i).mpr ⟨timer_lt_of_running hs hrun, hrun, hreach⟩)
    rw [usTick_timer, tick_of_counting hrun hcnt]
  case periodic =>
    obtain ⟨_, hrun, hcnt⟩ := (mem_firing_iff s i).mp hfire
    rw [usTick_timer, tick_of_periodic hrun hcnt hper]
  case oneshot =>
    obtain ⟨_, hrun, hcnt⟩ := (mem_firing_iff s i).mp hfire
    rw [usTick_timer, tick_of_oneshot hrun hcnt hone]
    exact ⟨Timer.halt_state .., Timer.halt_target ..⟩
  case queue => rw [htrigq, hus]
  case frame => rw [usTick_frame]

/-! ## PinChange -/

section

variable {s : State} {p : Nat} {v : Bool}

theorem pinChange_of_same_level (h : v = s.pinLevel p) : pinChange p v s = s := by
  simp [pinChange, h]

theorem pinChange_of_edge (hp : p < s.cfg.nPins) (hv : v ≠ s.pinLevel p)
    (hq : (s.binding p).valid = true ∧ qualifies (s.binding p).policy v = true) :
    pinChange p v s = (s.setPinLevel p v).latch (.pin p) v := by
  simp only [pinChange, Nat.not_le.mpr hp, hv, hq, if_false, and_self, if_true]

theorem pinChange_of_unwanted_edge (hp : p < s.cfg.nPins) (hv : v ≠ s.pinLevel p)
    (hq : ¬((s.binding p).valid = true ∧ qualifies (s.binding p).policy v = true)) :
    pinChange p v s = s.setPinLevel p v := by
  simp only [pinChange, Nat.not_le.mpr hp, hv, hq, if_false]

/-- A change of level is followed by PINLVL, and no other pin's level changes (R286). -/
theorem pinChange_pinLvl (hp : p < s.cfg.nPins) (hv : v ≠ s.pinLevel p) :
    (pinChange p v s).pinLvl = (s.setPinLevel p v).pinLvl := by
  by_cases hq : (s.binding p).valid = true ∧ qualifies (s.binding p).policy v = true
  · rw [pinChange_of_edge hp hv hq, latch_frame]
  · rw [pinChange_of_unwanted_edge hp hv hq]

end

/-- Settles O46: the edge is latched when the binding qualifies for it, by `qualifies_iff`. -/
theorem pinChangeLatchesEdges : Obligations.PinChangeLatchesEdges := by
  intro s p v hs hp
  refine ⟨fun hsame => congrArg Host.Outcome.next (pinChange_of_same_level hsame), fun hv wanted hwanted hknown => ?_⟩
  have hlevel : ∀ j, (pinChange p v s).pinLevel j = (s.setPinLevel p v).pinLevel j := fun j =>
    congrArg (·.getD j false) (pinChange_pinLvl hp hv)
  have hq : wanted = true ↔ (s.binding p).valid = true ∧ qualifies (s.binding p).policy v = true :=
    hwanted.trans (and_congr_right fun hvalid => (qualifies_iff (hknown hvalid) v).symm)
  refine ⟨pinChange p v s, rfl, ?same, fun j hj => ?other, ?queue, ?overrun, pinChange_frame p v s⟩
  case same =>
    obtain ⟨_, _, _, _, hlen, _⟩ := hs
    rw [hlevel, State.pinLevel_setPinLevel_same s p v (hlen ▸ hp)]
  case other => rw [hlevel, State.pinLevel_setPinLevel_ne s p j v hj]
  all_goals cases wanted with
  | true =>
    rw [pinChange_of_edge hp hv (hq.mp rfl)]
    simp only [latch_trigq, latch_overrun, Bool.true_and, decide_eq_true_eq]
    rfl
  | false =>
    rw [pinChange_of_unwanted_edge hp hv fun h => Bool.false_ne_true (hq.mpr h)]
    simp

end Sys2Proof.Machine
end

section
/-! SUPPORT. What a step does to TRIGQ (60_exceptions.md R287 to R289, R301): which step PROMPT lets come, and how far a
pending trigger is from the front of the queue. -/

namespace Sys2Proof.Machine

/-! ## The step that comes next -/

theorem mustDispatch_iff (s : State) :
    s.mustDispatch = true ↔
      s.cfg.dispatchModel = .prompt ∧ s.trigq ≠ [] ∧ s.nextAgent ≠ .dispatch ∧ s.nextAgent ≠ .reset := by
  unfold State.mustDispatch
  cases s.nextAgent <;> simp

theorem step_of_mustDispatch {s : State} (h : s.mustDispatch = true) : step s = dispatchStep s := by
  simp [step, nextStep, h]

/-! ## Purges -/

theorem purgeSources_nil (q : List Trigger) : purgeSources [] q = q := by
  simp [purgeSources]

theorem purgeSources_append (a b : List TrigSource) (q : List Trigger) :
    purgeSources a (purgeSources b q) = purgeSources (a ++ b) q := by
  simp [purgeSources, List.filter_filter]

/-- The TRIGQ `q'` is `q` with the triggers of some sources purged (R288). -/
def Purged (q q' : List Trigger) : Prop := ∃ srcs, q' = purgeSources srcs q

theorem Purged.refl (q : List Trigger) : Purged q q := ⟨[], (purgeSources_nil q).symm⟩

theorem Purged.trans {q q' q'' : List Trigger} (h : Purged q q') (h' : Purged q' q'') : Purged q q'' := by
  obtain ⟨b, rfl⟩ := h
  obtain ⟨a, rfl⟩ := h'
  exact ⟨a ++ b, purgeSources_append a b q⟩

theorem disarmTrigger_purged (s : State) : Purged s.trigq s.disarmTrigger.trigq := by
  cases hmode : s.eng.amode with
  | polling =>
    rw [disarmTrigger_of_polling hmode, State.purge_trigq, stopTimer_trigq]
    exact ⟨_, rfl⟩
  | interrupt => exact ⟨_, disarmTrigger_purges_of_interrupt hmode⟩

/-- No command latches a trigger; what it removes, it purges (R280, R288). -/
theorem CommandAction.purged {s e : State} (h : CommandAction s e) : Purged s.trigq e.trigq := by
  cases h with
  | timerStopped i _ =>
    rw [State.purge_trigq, stopTimer_trigq]
    exact ⟨_, rfl⟩
  | pinDetached p _ =>
    rw [State.purge_trigq, unbind_trigq]
    exact ⟨_, rfl⟩
  | timerBound | pinAttached | pollingStarted | interruptStarted => exact ⟨_, rfl⟩
  | engineStopped => exact disarmTrigger_purged s
  | busConfigured r speed bmode _ =>
    unfold State.configureBus
    split <;> exact .refl _
  | busReleased r _ =>
    unfold State.deconfigureBus
    split <;> exact .refl _
  | nothing | spiConfigured | timerStarted | timerCleared | descriptorStored => exact .refl _

theorem purged_foregroundKept (q : List Trigger) : ForegroundKept fun s => Purged q s.trigq where
  bookkeeping h hp := by rw [h]; exact hp
  command h hp := hp.trans h.purged
  popped _ hp := hp

/-- A Dispatch takes the oldest trigger; the auto-stop of its tick disarms the engine and purges (R216, R257, R289). -/
theorem dispatchStep_trigq {s t : State} {x : Trigger} {rest : List Trigger} (hq : s.trigq = x :: rest)
    (h : dispatchStep s = .next t) :
    t.trigq = rest ∨ (t.eng.armed = false ∧ Purged rest t.trigq) := by
  rw [dispatchStep_of_trigger hq] at h
  obtain ⟨_, ⟨_, _, hsame, _⟩ | ⟨_, heng, k, _, _, hpurged⟩, _⟩ := handlerFrame _ _ _ h
  · exact .inl hsame
  · rw [heng, hpurged]
    exact .inr ⟨rfl, disarmTrigger_purged { s with trigq := rest, free := k }⟩

/-! ## Latches -/

theorem latch_prefix (src : TrigSource) (val : Bool) (s : State) : s.trigq <+: (s.latch src val).trigq := by
  rw [latch_trigq]
  exact List.prefix_append _ _

theorem latchAll_prefix (is : List Nat) (s : State) :
    s.trigq <+: (is.foldl (fun s' i => s'.latch (.timer i) false) s).trigq := by
  induction is generalizing s with
  | nil => exact List.prefix_rfl
  | cons i is ih => exact (latch_prefix (.timer i) false s).trans (ih _)

theorem usTick_prefix (s : State) : s.trigq <+: (usTick s).trigq := by
  unfold usTick
  exact latchAll_prefix s.firing { s with us := s.us + 1, tmr := _, free := s.free + 1 }

theorem pinChange_prefix (p : Nat) (v : Bool) (s : State) : s.trigq <+: (pinChange p v s).trigq := by
  unfold pinChange
  split_ifs
  · exact List.prefix_rfl
  · exact List.prefix_rfl
  · exact latch_prefix (.pin p) v (s.setPinLevel p v)
  · exact List.prefix_rfl

/-! ## A pending trigger -/

/-- The step from `s` with the agent step `a` next is a Dispatch: `DispatchAt` of one step (R301). -/
def Dispatches (a : AgentStep) (s : State) : Prop := { s with sched := [a] }.mustDispatch = true ∨ a = .dispatch

/-- The agent step `a` from `s` to `t` may remove a trigger that it does not dispatch: the reset input, a command, or
the auto-stop of a tick (R288, R257). -/
def MayRemove (a : AgentStep) (s t : State) : Prop :=
  a = .reset ∨ (∃ words, a = .host words) ∨ (Dispatches a s ∧ t.eng.armed = false)

/-- The trigger `e` stays in TRIGQ and is no farther from its front. -/
def Advances (e : Trigger) (q q' : List Trigger) : Prop := e ∈ q' ∧ q'.idxOf e ≤ q.idxOf e

/-- What a filter keeps keeps its place or comes nearer to the front. -/
theorem idxOf_filter_le {α : Type} [DecidableEq α] {p : α → Bool} {a : α} {l : List α} (h : a ∈ l.filter p) :
    (l.filter p).idxOf a ≤ l.idxOf a := by
  have ha : p a = true := (List.mem_filter.mp h).2
  clear h
  induction l with
  | nil => exact Nat.le_refl _
  | cons b l ih =>
    by_cases hb : b = a
    · subst hb
      simp [ha]
    · rw [List.idxOf_cons_ne l hb, List.filter_cons]
      split
      · rw [List.idxOf_cons_ne _ hb]
        exact Nat.succ_le_succ ih
      · exact Nat.le_succ_of_le ih

theorem Purged.advances {q q' : List Trigger} {e : Trigger} (h : Purged q q') (he : e ∈ q') : Advances e q q' := by
  obtain ⟨srcs, rfl⟩ := h
  exact ⟨he, idxOf_filter_le he⟩

theorem advances_of_prefix {q q' : List Trigger} {e : Trigger} (h : q <+: q') (he : e ∈ q) : Advances e q q' :=
  ⟨h.subset he, (h.idxOf_eq_of_mem he).ge⟩

/-- A Dispatch takes a pending trigger, brings it nearer to the front, or removes it in the auto-stop of the tick of one
before it (R257, R289). -/
theorem dispatchStep_trigger {s t : State} {e : Trigger} (h : dispatchStep s = .next t) (he : e ∈ s.trigq) :
    s.trigq.head? = some e ∨ (e ∉ t.trigq ∧ t.eng.armed = false) ∨
      (e ∈ t.trigq ∧ t.trigq.idxOf e < s.trigq.idxOf e) := by
  obtain ⟨x, rest, hq⟩ := List.exists_cons_of_ne_nil (List.ne_nil_of_mem he)
  by_cases hx : x = e
  · exact .inl (by rw [hq, hx, List.head?_cons])
  · have hrest : e ∈ rest := List.mem_of_ne_of_mem (Ne.symm hx) (hq ▸ he)
    rw [hq, List.idxOf_cons_ne rest hx]
    rcases dispatchStep_trigq hq h with htaken | ⟨hstopped, hpurged⟩
    · rw [htaken]
      exact .inr (.inr ⟨hrest, Nat.lt_succ_self _⟩)
    · by_cases hmem : e ∈ t.trigq
      · exact .inr (.inr ⟨hmem, Nat.lt_succ_of_le (hpurged.advances hmem).2⟩)
      · exact .inr (.inl ⟨hmem, hstopped⟩)

/-- The other agents leave a pending trigger where it is or nearer to the front, but for the reset input and for
commands that purge it (R288, R330). -/
theorem agentStep_trigger {a : AgentStep} {s t : State} {e : Trigger} (ha : a ≠ .dispatch)
    (h : agentStep a s = .next t) (he : e ∈ s.trigq) :
    (e ∉ t.trigq ∧ (a = .reset ∨ ∃ words, a = .host words)) ∨ Advances e s.trigq t.trigq := by
  cases a with
  | usTick =>
    cases h
    exact .inr (advances_of_prefix (usTick_prefix s) he)
  | pinChange p v =>
    cases h
    exact .inr (advances_of_prefix (pinChange_prefix p v s) he)
  | dispatch => exact absurd rfl ha
  | host words =>
    have hpurged : Purged s.trigq t.trigq :=
      (purged_foregroundKept s.trigq).host (fun _ _ _ hp => hp) (.refl s.trigq) h
    by_cases hmem : e ∈ t.trigq
    · exact .inr (hpurged.advances hmem)
    · exact .inl ⟨hmem, .inr ⟨words, rfl⟩⟩
  | reset =>
    cases h
    exact .inl ⟨List.not_mem_nil, .inl rfl⟩

/-- What a step does to a pending trigger: it dispatches it, removes it, or leaves it no farther from the front of
TRIGQ, and nearer if the step is a Dispatch. -/
theorem step_trigger {a : AgentStep} {s t : State} {e : Trigger} (h : step { s with sched := [a] } = .next t)
    (he : e ∈ s.trigq) :
    (Dispatches a s ∧ s.trigq.head? = some e) ∨ (e ∉ t.trigq ∧ MayRemove a s t) ∨
      (Advances e s.trigq t.trigq ∧ (Dispatches a s → t.trigq.idxOf e < s.trigq.idxOf e)) := by
  by_cases hd : Dispatches a s
  · have hdispatch : ∃ u, u.trigq = s.trigq ∧ dispatchStep u = .next t := by
      cases hm : State.mustDispatch { s with sched := [a] } with
      | true => exact ⟨{ s with sched := [a] }, rfl, (step_of_mustDispatch hm).symm.trans h⟩
      | false =>
        obtain rfl : a = .dispatch := hd.resolve_left (by simp [hm])
        exact ⟨{ s with sched := [] }, rfl, (step_of_not_mustDispatch hm).symm.trans h⟩
    obtain ⟨u, hq, hu⟩ := hdispatch
    rw [← hq] at he ⊢
    rcases dispatchStep_trigger hu he with hhead | ⟨hgone, hstopped⟩ | ⟨hmem, hlt⟩
    · exact .inl ⟨hd, hhead⟩
    · exact .inr (.inl ⟨hgone, .inr (.inr ⟨hd, hstopped⟩)⟩)
    · exact .inr (.inr ⟨⟨hmem, hlt.le⟩, fun _ => hlt⟩)
  · obtain ⟨hm, ha⟩ := not_or.mp hd
    rw [step_of_not_mustDispatch (Bool.eq_false_iff.mpr hm)] at h
    rcases agentStep_trigger ha h he with ⟨hgone, hcause⟩ | hadv
    · exact .inr (.inl ⟨hgone, hcause.imp_right .inl⟩)
    · exact .inr (.inr ⟨hadv, fun hd' => absurd hd' hd⟩)

end Sys2Proof.Machine
end

section
/-! SUPPORT. PROMPT and FAIR (60_exceptions.md R301): what comes next, and that no pending trigger waits for ever. -/

namespace Sys2Proof.Machine

/-- A number that never grows and falls again and again would fall below 0. -/
theorem not_often_of_descending {f : Nat → Nat} {D : Nat → Prop} {n : Nat} (hle : ∀ m, n ≤ m → f (m + 1) ≤ f m)
    (hlt : ∀ m, n ≤ m → D m → f (m + 1) < f m) : ¬∀ m, n ≤ m → ∃ k, m ≤ k ∧ D k := by
  intro often
  have antitone : ∀ m, n ≤ m → ∀ k, m ≤ k → f k ≤ f m := fun m hm =>
    Nat.le_induction (Nat.le_refl _) fun k hk ih => (hle k (hm.trans hk)).trans ih
  have falls : ∀ d, ∃ m, n ≤ m ∧ f m + d ≤ f n := by
    intro d
    induction d with
    | zero => exact ⟨n, Nat.le_refl n, Nat.le_refl _⟩
    | succ d ih =>
      obtain ⟨m, hm, hfm⟩ := ih
      obtain ⟨k, hk, hD⟩ := often m hm
      have hfk := antitone m hm k hk
      have hstep := hlt k (hm.trans hk) hD
      exact ⟨k + 1, Nat.le_succ_of_le (hm.trans hk), by omega⟩
  obtain ⟨m, _, hfm⟩ := falls (f n + 1)
  omega

/-- Under weak fairness a pending trigger is dispatched or removed: else its place in TRIGQ would fall for ever
(R301). -/
theorem pending_trigger_leaves {agents : Nat → AgentStep} {run : Nat → State} (hx : Execution agents run)
    (hfair : WeaklyFair agents run) {n : Nat} {e : Trigger} (he : e ∈ (run n).trigq) :
    ∃ m, n ≤ m ∧ ((Dispatches (agents m) (run m) ∧ (run m).trigq.head? = some e) ∨
      (e ∈ (run m).trigq ∧ e ∉ (run (m + 1)).trigq ∧ MayRemove (agents m) (run m) (run (m + 1)))) := by
  by_contra hnot
  have waits : ∀ m, n ≤ m → e ∈ (run m).trigq →
      Advances e (run m).trigq (run (m + 1)).trigq ∧
        (Dispatches (agents m) (run m) → (run (m + 1)).trigq.idxOf e < (run m).trigq.idxOf e) := by
    intro m hm hmem
    rcases step_trigger (hx m) hmem with htaken | ⟨hgone, hcause⟩ | hwaits
    · exact absurd ⟨m, hm, .inl htaken⟩ hnot
    · exact absurd ⟨m, hm, .inr ⟨hmem, hgone, hcause⟩⟩ hnot
    · exact hwaits
  have stays : ∀ m, n ≤ m → e ∈ (run m).trigq :=
    Nat.le_induction he fun m hm hmem => (waits m hm hmem).1.1
  refine not_often_of_descending (f := fun m => (run m).trigq.idxOf e) (n := n)
    (fun m hm => (waits m hm (stays m hm)).1.2) (fun m hm => (waits m hm (stays m hm)).2) fun m hm => ?_
  exact hfair m fun k hk => List.ne_nil_of_mem (stays k (hm.trans hk))

/-- Settles O9: the schedule by `mustDispatch_iff`, the pending triggers by `pending_trigger_leaves`. -/
theorem promptDispatchesFirst : Obligations.PromptDispatchesFirst := by
  refine ⟨fun s => ⟨fun hprompt hq hreset => ?prompt, fun _ _ hreset => ?reset, fun hfair => ?next⟩,
    fun agents run hx hfair n e he => pending_trigger_leaves hx hfair he⟩
  case prompt =>
    by_cases hdispatch : s.nextAgent = .dispatch
    · have hm : s.mustDispatch = false := Bool.eq_false_iff.mpr (by simp [mustDispatch_iff, hdispatch])
      have hstep := step_of_not_mustDispatch hm
      rw [hdispatch] at hstep
      exact .inr ⟨hdispatch, hstep⟩
    · exact .inl (step_of_mustDispatch ((mustDispatch_iff s).mpr ⟨hprompt, hq, hdispatch, hreset⟩))
  case reset =>
    have hm : s.mustDispatch = false := Bool.eq_false_iff.mpr (by simp [mustDispatch_iff, hreset])
    rw [step_of_not_mustDispatch hm, hreset]
  case next =>
    have hm : s.mustDispatch = false := Bool.eq_false_iff.mpr fun h => by
      obtain ⟨hprompt, hq, _⟩ := (mustDispatch_iff s).mp h
      rcases hfair with hfair | hempty
      · exact absurd (hfair.symm.trans hprompt) nofun
      · exact hq hempty
    exact step_of_not_mustDispatch hm

end Sys2Proof.Machine
end

section
/-! SUPPORT. The state right after reset (70_reset_and_hazards.md R331): reset leaves it as it is, so that it meets whatever
the reset input establishes. -/

namespace Sys2Proof.Machine

/-- The configurations REF and SMALL of R5 are allowed by R6. -/
theorem ref_ok : Params.ref.Ok := by decide

theorem small_ok : Params.small.Ok := by decide

theorem resetStep_resetWith (p : Params) : resetStep (State.resetWith p) = State.resetWith p := rfl

/-- The command port is empty after reset (R55). -/
theorem resetStep_portOk (s : State) : (resetStep s).PortOk := ⟨rfl, nofun⟩

/-- The reset input leaves a state that meets every invariant, whatever the state before (R330, R331). -/
theorem resetStep_inv {s : State} (h : s.cfg.Ok) : (resetStep s).Inv :=
  have hqueue := resetStep_queueInv h
  ⟨resetStep_shaped h, resetStep_descriptorsOk s, (engineInv_iff _).mp (resetStep_engineInv s), hqueue.queue,
    hqueue.prompt, resetStep_ringOk h, resetStep_portOk s⟩

/-- Settles O49: the reset state is what the reset input makes of itself, and `resetStep_inv`. -/
theorem resetMeetsInvariants : Obligations.ResetMeetsInvariants := by
  refine ⟨ref_ok, small_ok, fun p hp => ?_⟩
  rw [← resetStep_resetWith]
  exact resetStep_inv hp

end Sys2Proof.Machine
end

section
/-! SUPPORT. The canonical form of the ring memory (log 3): the bytes of the ring space are written by Push and PopOne
alone, byte by byte, and a write keeps the offsets strictly rising. -/

namespace Sys2Proof.Machine

/-- The evictions of a push write no byte; the record's bytes are written one by one (R85). -/
theorem push_wf {cap : Nat} {rec : List Byte} {r r' : Ring} (h : push cap rec r = .ok r') (hwf : r.buf.wf) :
    r'.buf.wf := by
  obtain ⟨r1, hevict, rfl⟩ := push_ok h
  obtain ⟨hbuf, _⟩ := evictLoop_ok hevict
  have hwf1 : r1.buf.wf := hbuf ▸ hwf
  exact ringWrite_wf cap rec r1.buf r1.tail hwf1

/-- PopOne writes one byte, the FLAGS of the record it consumes, or none (R88). -/
theorem popOne_wf {cap : Nat} {filter : Byte} {r r' : Ring} {out : Option (List Byte)}
    (h : popOne cap filter r = .ok (out, r')) (hwf : r.buf.wf) : r'.buf.wf := by
  rcases popScan_ok h with ⟨_, rfl⟩ | ⟨_, _, _, _, _, _, _, _, _, _, hconsume⟩
  · exact hwf
  · obtain ⟨hbuf, _⟩ := consumeAt_ok hconsume
    rw [hbuf]
    exact Memory.wf_write r.buf _ _ hwf

theorem memoryWf_stepKept : StepKept (·.ring.buf.wf) where
  bookkeeping h hp := by rw [h]; exact hp
  command h hp := by rw [h.effect.frame]; exact hp
  popped hpop hp := popOne_wf hpop hp
  traces h hp := by rw [h]; exact hp
  taken _ hp := hp
  fireCounted hp := hp
  served _ _ hpush hp := push_wf hpush hp
  stopped hp := by rw [stopProcedure_frame]; exact hp
  readEnded hp := hp
  ticked _ hp := by rw [usTick_frame]; exact hp
  pinChanged p v _ hp := by rw [pinChange_frame]; exact hp

/-- Settles O55: every step but reset keeps the form by `memoryWf_stepKept`, and reset leaves the empty memory. -/
theorem stepKeepsMemoryCanonical : Obligations.StepKeepsMemoryCanonical := by
  intro s t hwf h
  rcases memoryWf_stepKept.step hwf h with ht | ⟨_, _, rfl⟩
  · exact ht
  · exact List.Pairwise.nil

end Sys2Proof.Machine
end
